-- ==== Sys2Proof/Word.lean ====
section
/-! DEFINITION. The machine's word types (spec 00_scope.md R13, R22): 8-, 16- and 32-bit values and the
register fields of the two encodings. -/

namespace Sys2Proof

/-- A byte, the smallest addressable unit (R13). -/
abbrev Byte := BitVec 8

/-- A halfword: a Thumb instruction, an I/O register (R13, R100). -/
abbrev Half := BitVec 16

/-- A word: a general register, an address, an ARM instruction (R13). -/
abbrev Word := BitVec 32

/-- A 4-bit register field of an ARM instruction, r0 to r15 (R252). -/
abbrev RegNo := BitVec 4

/-- A 3-bit register field of a Thumb instruction, r0 to r7 (R252). -/
abbrev LowReg := BitVec 3

/-- A low register named as one of the sixteen (R252). -/
abbrev LowReg.up (r : LowReg) : RegNo := r.setWidth 4

end Sys2Proof
end

