-- ==== Sys2Proof/Syntax.lean ====
section
/-! DEFINITION. The instruction set as syntax (30_encoding.md): one constructor of Instr for each row of
spec/opcode_table.json, in the table's order. Register numbers, shift types and conditions are typed here once; the
machine never sees a raw word. Fields the hardware ignores are kept, so that an instruction determines its word. -/

namespace Sys2Proof

/-- The condition field (R253). The value 1111 (NV) is no condition: such a word does not decode (D5). -/
inductive Cond where
  | eq | ne | cs | cc | mi | pl | vs | vc | hi | ls | ge | lt | gt | le | al
deriving DecidableEq, Repr

/-- The shift types of a register operand (R257). -/
inductive ShiftType where
  | lsl | lsr | asr | ror
deriving DecidableEq, Repr

/-- Operand2 of a data-processing instruction (R255-R257). -/
inductive Operand2 where
  /-- `ROR(imm8, 2 * rot)` (R256). -/
  | imm (rot : BitVec 4) (imm8 : BitVec 8)
  /-- Rm shifted by a 5-bit amount (R257, bit 4 = 0). -/
  | regImm (amount : BitVec 5) (ty : ShiftType) (rm : RegNo)
  /-- Rm shifted by the low byte of Rs (R257, bit 4 = 1). -/
  | regReg (rs : RegNo) (ty : ShiftType) (rm : RegNo)
deriving DecidableEq, Repr

/-- The offset of a single data transfer (R265). -/
inductive Offset where
  | imm (off : BitVec 12)
  | reg (amount : BitVec 5) (ty : ShiftType) (rm : RegNo)
deriving DecidableEq, Repr

/-- The instructions of both encodings, one constructor per row of spec/opcode_table.json. Constructors that begin
with t are Thumb instructions. The flags p, u, w, s, r are the bits of the same names in the encodings. -/
inductive Instr where
  /-- BX (R264, R575). -/
  | bx (c : Cond) (rm : RegNo)
  /-- MUL (R260, R470). Bits 15:12 are ignored (D73) and kept, so that no bit of the word is lost. -/
  | mul (c : Cond) (s : Bool) (rd ignored rs rm : RegNo)
  /-- MLA (R260, R471). -/
  | mla (c : Cond) (s : Bool) (rd rn rs rm : RegNo)
  /-- UMULL (R261, R475). -/
  | umull (c : Cond) (s : Bool) (rdHi rdLo rs rm : RegNo)
  /-- UMLAL (R261, R476). -/
  | umlal (c : Cond) (s : Bool) (rdHi rdLo rs rm : RegNo)
  /-- SMULL (R261, R477). -/
  | smull (c : Cond) (s : Bool) (rdHi rdLo rs rm : RegNo)
  /-- SMLAL (R261, R478). -/
  | smlal (c : Cond) (s : Bool) (rdHi rdLo rs rm : RegNo)
  /-- SWP (R262, R560). -/
  | swp (c : Cond) (rn rd rm : RegNo)
  /-- SWPB (R262, R561). -/
  | swpb (c : Cond) (rn rd rm : RegNo)
  /-- STRH, register offset (R263, R520). -/
  | strhReg (c : Cond) (p u w : Bool) (rn rd rm : RegNo)
  /-- STRH, immediate offset (R263, R520). -/
  | strhImm (c : Cond) (p u w : Bool) (rn rd : RegNo) (off : BitVec 8)
  /-- LDRH, register offset (R263, R521). -/
  | ldrhReg (c : Cond) (p u w : Bool) (rn rd rm : RegNo)
  /-- LDRH, immediate offset (R263, R521). -/
  | ldrhImm (c : Cond) (p u w : Bool) (rn rd : RegNo) (off : BitVec 8)
  /-- LDRSB, register offset (R263, R522). -/
  | ldrsbReg (c : Cond) (p u w : Bool) (rn rd rm : RegNo)
  /-- LDRSB, immediate offset (R263, R522). -/
  | ldrsbImm (c : Cond) (p u w : Bool) (rn rd : RegNo) (off : BitVec 8)
  /-- LDRSH, register offset (R263, R523). -/
  | ldrshReg (c : Cond) (p u w : Bool) (rn rd rm : RegNo)
  /-- LDRSH, immediate offset (R263, R523). -/
  | ldrshImm (c : Cond) (p u w : Bool) (rn rd : RegNo) (off : BitVec 8)
  /-- MRS (R258, R430); r selects the SPSR. -/
  | mrs (c : Cond) (r : Bool) (rd : RegNo)
  /-- MSR CPSR, register form (R259, R431). -/
  | msrCpsrReg (c : Cond) (mask : BitVec 4) (rm : RegNo)
  /-- MSR CPSR, immediate form (R259, R431). -/
  | msrCpsrImm (c : Cond) (mask rot : BitVec 4) (imm8 : BitVec 8)
  /-- MSR SPSR, register form (R259, R432). -/
  | msrSpsrReg (c : Cond) (mask : BitVec 4) (rm : RegNo)
  /-- MSR SPSR, immediate form (R259, R432). -/
  | msrSpsrImm (c : Cond) (mask rot : BitVec 4) (imm8 : BitVec 8)
  /-- AND (R255, R410). -/
  | and (c : Cond) (s : Bool) (rn rd : RegNo) (op2 : Operand2)
  /-- EOR (R255, R411). -/
  | eor (c : Cond) (s : Bool) (rn rd : RegNo) (op2 : Operand2)
  /-- SUB (R255, R412). -/
  | sub (c : Cond) (s : Bool) (rn rd : RegNo) (op2 : Operand2)
  /-- RSB (R255, R413). -/
  | rsb (c : Cond) (s : Bool) (rn rd : RegNo) (op2 : Operand2)
  /-- ADD (R255, R414). -/
  | add (c : Cond) (s : Bool) (rn rd : RegNo) (op2 : Operand2)
  /-- ADC (R255, R415). -/
  | adc (c : Cond) (s : Bool) (rn rd : RegNo) (op2 : Operand2)
  /-- SBC (R255, R416). -/
  | sbc (c : Cond) (s : Bool) (rn rd : RegNo) (op2 : Operand2)
  /-- RSC (R255, R417). -/
  | rsc (c : Cond) (s : Bool) (rn rd : RegNo) (op2 : Operand2)
  /-- TST (R255, R418). The Rd field is ignored (D73) and kept. -/
  | tst (c : Cond) (rn ignored : RegNo) (op2 : Operand2)
  /-- TEQ (R255, R419). The Rd field is ignored (D73) and kept. -/
  | teq (c : Cond) (rn ignored : RegNo) (op2 : Operand2)
  /-- CMP (R255, R420). The Rd field is ignored (D73) and kept. -/
  | cmp (c : Cond) (rn ignored : RegNo) (op2 : Operand2)
  /-- CMN (R255, R421). The Rd field is ignored (D73) and kept. -/
  | cmn (c : Cond) (rn ignored : RegNo) (op2 : Operand2)
  /-- ORR (R255, R422). -/
  | orr (c : Cond) (s : Bool) (rn rd : RegNo) (op2 : Operand2)
  /-- MOV (R255, R423). The Rn field is ignored (D73) and kept. -/
  | mov (c : Cond) (s : Bool) (ignored rd : RegNo) (op2 : Operand2)
  /-- BIC (R255, R424). -/
  | bic (c : Cond) (s : Bool) (rn rd : RegNo) (op2 : Operand2)
  /-- MVN (R255, R425). The Rn field is ignored (D73) and kept. -/
  | mvn (c : Cond) (s : Bool) (ignored rd : RegNo) (op2 : Operand2)
  /-- STR (R265, R501); p = 0 with w = 1 is the T variant instead. -/
  | str (c : Cond) (p u w : Bool) (rn rd : RegNo) (off : Offset)
  /-- LDR (R265, R500); p = 0 with w = 1 is the T variant instead. -/
  | ldr (c : Cond) (p u w : Bool) (rn rd : RegNo) (off : Offset)
  /-- STRB (R265, R503); p = 0 with w = 1 is the T variant instead. -/
  | strb (c : Cond) (p u w : Bool) (rn rd : RegNo) (off : Offset)
  /-- LDRB (R265, R502); p = 0 with w = 1 is the T variant instead. -/
  | ldrb (c : Cond) (p u w : Bool) (rn rd : RegNo) (off : Offset)
  /-- STRT (R265, R505). -/
  | strt (c : Cond) (u : Bool) (rn rd : RegNo) (off : Offset)
  /-- LDRT (R265, R504). -/
  | ldrt (c : Cond) (u : Bool) (rn rd : RegNo) (off : Offset)
  /-- STRBT (R265, R507). -/
  | strbt (c : Cond) (u : Bool) (rn rd : RegNo) (off : Offset)
  /-- LDRBT (R265, R506). -/
  | ldrbt (c : Cond) (u : Bool) (rn rd : RegNo) (off : Offset)
  /-- The undefined-instruction space (R266 (a)): bits 24:5 and 3:0 of the word. -/
  | undefinedArm (c : Cond) (hi : BitVec 20) (lo : BitVec 4)
  /-- STM (R267, R543). -/
  | stm (c : Cond) (p u s w : Bool) (rn : RegNo) (list : BitVec 16)
  /-- LDM (R267, R540). -/
  | ldm (c : Cond) (p u s w : Bool) (rn : RegNo) (list : BitVec 16)
  /-- B (R268, R570). -/
  | b (c : Cond) (off : BitVec 24)
  /-- BL (R268, R571). -/
  | bl (c : Cond) (off : BitVec 24)
  /-- LDC and STC, which no coprocessor takes (R269, R590). -/
  | ldcStc (c : Cond) (rest : BitVec 25)
  /-- CDP, which no coprocessor takes (R269, R590): bits 23:5 and 3:0 of the word. -/
  | cdp (c : Cond) (hi : BitVec 19) (lo : BitVec 4)
  /-- MCR and MRC, which no coprocessor takes (R269, R590): bits 23:5 and 3:0 of the word. -/
  | mcrMrc (c : Cond) (hi : BitVec 19) (lo : BitVec 4)
  /-- SWI (R270, R580). -/
  | swi (c : Cond) (comment : BitVec 24)
  /-- Thumb format 1, LSL Rd, Rs, #offset5 (R281, R600). -/
  | tLslImm (off : BitVec 5) (rs rd : LowReg)
  /-- Thumb format 1, LSR Rd, Rs, #offset5 (R281, R601). -/
  | tLsrImm (off : BitVec 5) (rs rd : LowReg)
  /-- Thumb format 1, ASR Rd, Rs, #offset5 (R281, R602). -/
  | tAsrImm (off : BitVec 5) (rs rd : LowReg)
  /-- Thumb format 2, ADD Rd, Rs, Rn (R282, R605). -/
  | tAddReg (rn rs rd : LowReg)
  /-- Thumb format 2, SUB Rd, Rs, Rn (R282, R607). -/
  | tSubReg (rn rs rd : LowReg)
  /-- Thumb format 2, ADD Rd, Rs, #imm3 (R282, R606). -/
  | tAddImm3 (imm3 : BitVec 3) (rs rd : LowReg)
  /-- Thumb format 2, SUB Rd, Rs, #imm3 (R282, R608). -/
  | tSubImm3 (imm3 : BitVec 3) (rs rd : LowReg)
  /-- Thumb format 3, MOV Rd, #imm8 (R283, R610). -/
  | tMovImm8 (rd : LowReg) (imm8 : BitVec 8)
  /-- Thumb format 3, CMP Rd, #imm8 (R283, R611). -/
  | tCmpImm8 (rd : LowReg) (imm8 : BitVec 8)
  /-- Thumb format 3, ADD Rd, #imm8 (R283, R612). -/
  | tAddImm8 (rd : LowReg) (imm8 : BitVec 8)
  /-- Thumb format 3, SUB Rd, #imm8 (R283, R613). -/
  | tSubImm8 (rd : LowReg) (imm8 : BitVec 8)
  /-- Thumb format 4, op 0000 (R284, R620). -/
  | tAnd (rs rd : LowReg)
  /-- Thumb format 4, op 0001 (R284, R621). -/
  | tEor (rs rd : LowReg)
  /-- Thumb format 4, op 0010 (R284, R622). -/
  | tLslReg (rs rd : LowReg)
  /-- Thumb format 4, op 0011 (R284, R623). -/
  | tLsrReg (rs rd : LowReg)
  /-- Thumb format 4, op 0100 (R284, R624). -/
  | tAsrReg (rs rd : LowReg)
  /-- Thumb format 4, op 0101 (R284, R625). -/
  | tAdc (rs rd : LowReg)
  /-- Thumb format 4, op 0110 (R284, R626). -/
  | tSbc (rs rd : LowReg)
  /-- Thumb format 4, op 0111 (R284, R627). -/
  | tRorReg (rs rd : LowReg)
  /-- Thumb format 4, op 1000 (R284, R628). -/
  | tTst (rs rd : LowReg)
  /-- Thumb format 4, op 1001 (R284, R629). -/
  | tNeg (rs rd : LowReg)
  /-- Thumb format 4, op 1010 (R284, R630). -/
  | tCmpReg (rs rd : LowReg)
  /-- Thumb format 4, op 1011 (R284, R631). -/
  | tCmn (rs rd : LowReg)
  /-- Thumb format 4, op 1100 (R284, R632). -/
  | tOrr (rs rd : LowReg)
  /-- Thumb format 4, op 1101 (R284, R633). -/
  | tMul (rs rd : LowReg)
  /-- Thumb format 4, op 1110 (R284, R634). -/
  | tBic (rs rd : LowReg)
  /-- Thumb format 4, op 1111 (R284, R635). -/
  | tMvn (rs rd : LowReg)
  /-- Thumb format 5, ADD Rd, Rs with rd = H1:Rd and rs = H2:Rs (R285, R640). -/
  | tAddHi (rs rd : RegNo)
  /-- Thumb format 5, CMP Rd, Rs with rd = H1:Rd and rs = H2:Rs (R285, R641). -/
  | tCmpHi (rs rd : RegNo)
  /-- Thumb format 5, MOV Rd, Rs with rd = H1:Rd and rs = H2:Rs (R285, R642). -/
  | tMovHi (rs rd : RegNo)
  /-- Thumb format 5, BX Rs (R285, R735). -/
  | tBx (rs : RegNo)
  /-- Thumb format 6 (R286, R670). -/
  | tLdrPc (rd : LowReg) (imm8 : BitVec 8)
  /-- Thumb format 7, STR Rd, [Rb, Ro] (R287, R675). -/
  | tStrReg (ro rb rd : LowReg)
  /-- Thumb format 7, STRB Rd, [Rb, Ro] (R287, R676). -/
  | tStrbReg (ro rb rd : LowReg)
  /-- Thumb format 7, LDR Rd, [Rb, Ro] (R287, R677). -/
  | tLdrReg (ro rb rd : LowReg)
  /-- Thumb format 7, LDRB Rd, [Rb, Ro] (R287, R678). -/
  | tLdrbReg (ro rb rd : LowReg)
  /-- Thumb format 8, STRH Rd, [Rb, Ro] (R288, R680). -/
  | tStrhReg (ro rb rd : LowReg)
  /-- Thumb format 8, LDRH Rd, [Rb, Ro] (R288, R681). -/
  | tLdrhReg (ro rb rd : LowReg)
  /-- Thumb format 8, LDSB Rd, [Rb, Ro] (R288, R682). -/
  | tLdsbReg (ro rb rd : LowReg)
  /-- Thumb format 8, LDSH Rd, [Rb, Ro] (R288, R683). -/
  | tLdshReg (ro rb rd : LowReg)
  /-- Thumb format 9, STR Rd, [Rb, #offset5] (R289, R685). -/
  | tStrImm (off : BitVec 5) (rb rd : LowReg)
  /-- Thumb format 9, LDR Rd, [Rb, #offset5] (R289, R686). -/
  | tLdrImm (off : BitVec 5) (rb rd : LowReg)
  /-- Thumb format 9, STRB Rd, [Rb, #offset5] (R289, R687). -/
  | tStrbImm (off : BitVec 5) (rb rd : LowReg)
  /-- Thumb format 9, LDRB Rd, [Rb, #offset5] (R289, R688). -/
  | tLdrbImm (off : BitVec 5) (rb rd : LowReg)
  /-- Thumb format 10, STRH Rd, [Rb, #offset5] (R290, R690). -/
  | tStrhImm (off : BitVec 5) (rb rd : LowReg)
  /-- Thumb format 10, LDRH Rd, [Rb, #offset5] (R290, R691). -/
  | tLdrhImm (off : BitVec 5) (rb rd : LowReg)
  /-- Thumb format 11, STR Rd, [SP, #imm8*4] (R291, R695). -/
  | tStrSp (rd : LowReg) (imm8 : BitVec 8)
  /-- Thumb format 11, LDR Rd, [SP, #imm8*4] (R291, R696). -/
  | tLdrSp (rd : LowReg) (imm8 : BitVec 8)
  /-- Thumb format 12, ADD Rd, PC, #imm8*4 (R292, R645). -/
  | tAddPc (rd : LowReg) (imm8 : BitVec 8)
  /-- Thumb format 12, ADD Rd, SP, #imm8*4 (R292, R646). -/
  | tAddSp (rd : LowReg) (imm8 : BitVec 8)
  /-- Thumb format 13, ADD SP, #imm7*4 signed by s (R293, R650). -/
  | tAdjustSp (s : Bool) (imm7 : BitVec 7)
  /-- Thumb format 14, PUSH (R294, R700). -/
  | tPush (r : Bool) (list : BitVec 8)
  /-- Thumb format 14, POP (R294, R701). -/
  | tPop (r : Bool) (list : BitVec 8)
  /-- Thumb format 15, STMIA Rb! (R295, R705). -/
  | tStmia (rb : LowReg) (list : BitVec 8)
  /-- Thumb format 15, LDMIA Rb! (R295, R706). -/
  | tLdmia (rb : LowReg) (list : BitVec 8)
  /-- Thumb format 17, SWI (R297, R745). -/
  | tSwi (imm8 : BitVec 8)
  /-- Thumb format 16, B<cond> (R296, R730). -/
  | tBcond (c : Cond) (off : BitVec 8)
  /-- Thumb format 18, B (R298, R731). -/
  | tB (off : BitVec 11)
  /-- Thumb format 19, the first half of BL (R299, R740). -/
  | tBlHigh (off : BitVec 11)
  /-- Thumb format 19, the second half of BL (R299, R741). -/
  | tBlLow (off : BitVec 11)
  /-- The halfwords 0xDE00 to 0xDEFF, condition 1110 (R280). -/
  | tUndefCond (rest : BitVec 8)
  /-- The halfwords with the leading bits 11101 (R280). -/
  | tUndefBlx (rest : BitVec 11)
  /-- The halfwords 0xB100 to 0xB1FF (R280). -/
  | tUndefB1 (rest : BitVec 8)
  /-- The halfwords 0xB200 to 0xB2FF (R280). -/
  | tUndefB2 (rest : BitVec 8)
  /-- The halfwords 0xB300 to 0xB3FF (R280). -/
  | tUndefB3 (rest : BitVec 8)
  /-- The halfwords 0xB600 to 0xB6FF (R280). -/
  | tUndefB6 (rest : BitVec 8)
  /-- The halfwords 0xB700 to 0xB7FF (R280). -/
  | tUndefB7 (rest : BitVec 8)
  /-- The halfwords 0xB800 to 0xB8FF (R280). -/
  | tUndefB8 (rest : BitVec 8)
  /-- The halfwords 0xB900 to 0xB9FF (R280). -/
  | tUndefB9 (rest : BitVec 8)
  /-- The halfwords 0xBA00 to 0xBAFF (R280). -/
  | tUndefBA (rest : BitVec 8)
  /-- The halfwords 0xBB00 to 0xBBFF (R280). -/
  | tUndefBB (rest : BitVec 8)
  /-- The halfwords 0xBE00 to 0xBEFF (R280). -/
  | tUndefBE (rest : BitVec 8)
  /-- The halfwords 0xBF00 to 0xBFFF (R280). -/
  | tUndefBF (rest : BitVec 8)
deriving DecidableEq, Repr

end Sys2Proof
end

