-- ==== Sys2Proof/WellFormed.lean ====
section
/-! DEFINITION. The terms of Instr that are instructions: each is a word of one encoding (30_encoding.md). -/

namespace Sys2Proof

/-- A term is well-formed if some word encodes it. Two checks are not made by the types: a post-indexed single
transfer with w = 1 is the T variant, a row of its own (R265, R504-R507); and a Thumb conditional branch has no
condition AL (R296). Operand restrictions that the spec checks when an instruction executes (R361, R466, R509, R525,
R545, R562) are not syntax: the meanings check them. -/
def Instr.wellFormed : Instr → Bool
  | .bx .. => true
  | .mul .. => true
  | .mla .. => true
  | .umull .. => true
  | .umlal .. => true
  | .smull .. => true
  | .smlal .. => true
  | .swp .. => true
  | .swpb .. => true
  | .strhReg .. => true
  | .strhImm .. => true
  | .ldrhReg .. => true
  | .ldrhImm .. => true
  | .ldrsbReg .. => true
  | .ldrsbImm .. => true
  | .ldrshReg .. => true
  | .ldrshImm .. => true
  | .mrs .. => true
  | .msrCpsrReg .. => true
  | .msrCpsrImm .. => true
  | .msrSpsrReg .. => true
  | .msrSpsrImm .. => true
  | .and .. => true
  | .eor .. => true
  | .sub .. => true
  | .rsb .. => true
  | .add .. => true
  | .adc .. => true
  | .sbc .. => true
  | .rsc .. => true
  | .tst .. => true
  | .teq .. => true
  | .cmp .. => true
  | .cmn .. => true
  | .orr .. => true
  | .mov .. => true
  | .bic .. => true
  | .mvn .. => true
  | .str _ p _ w _ _ _ => p || !w
  | .ldr _ p _ w _ _ _ => p || !w
  | .strb _ p _ w _ _ _ => p || !w
  | .ldrb _ p _ w _ _ _ => p || !w
  | .strt .. => true
  | .ldrt .. => true
  | .strbt .. => true
  | .ldrbt .. => true
  | .undefinedArm .. => true
  | .stm .. => true
  | .ldm .. => true
  | .b .. => true
  | .bl .. => true
  | .ldcStc .. => true
  | .cdp .. => true
  | .mcrMrc .. => true
  | .swi .. => true
  | .tLslImm .. => true
  | .tLsrImm .. => true
  | .tAsrImm .. => true
  | .tAddReg .. => true
  | .tSubReg .. => true
  | .tAddImm3 .. => true
  | .tSubImm3 .. => true
  | .tMovImm8 .. => true
  | .tCmpImm8 .. => true
  | .tAddImm8 .. => true
  | .tSubImm8 .. => true
  | .tAnd .. => true
  | .tEor .. => true
  | .tLslReg .. => true
  | .tLsrReg .. => true
  | .tAsrReg .. => true
  | .tAdc .. => true
  | .tSbc .. => true
  | .tRorReg .. => true
  | .tTst .. => true
  | .tNeg .. => true
  | .tCmpReg .. => true
  | .tCmn .. => true
  | .tOrr .. => true
  | .tMul .. => true
  | .tBic .. => true
  | .tMvn .. => true
  | .tAddHi .. => true
  | .tCmpHi .. => true
  | .tMovHi .. => true
  | .tBx .. => true
  | .tLdrPc .. => true
  | .tStrReg .. => true
  | .tStrbReg .. => true
  | .tLdrReg .. => true
  | .tLdrbReg .. => true
  | .tStrhReg .. => true
  | .tLdrhReg .. => true
  | .tLdsbReg .. => true
  | .tLdshReg .. => true
  | .tStrImm .. => true
  | .tLdrImm .. => true
  | .tStrbImm .. => true
  | .tLdrbImm .. => true
  | .tStrhImm .. => true
  | .tLdrhImm .. => true
  | .tStrSp .. => true
  | .tLdrSp .. => true
  | .tAddPc .. => true
  | .tAddSp .. => true
  | .tAdjustSp .. => true
  | .tPush .. => true
  | .tPop .. => true
  | .tStmia .. => true
  | .tLdmia .. => true
  | .tSwi .. => true
  | .tBcond c _ => c != .al
  | .tB .. => true
  | .tBlHigh .. => true
  | .tBlLow .. => true
  | .tUndefCond .. => true
  | .tUndefBlx .. => true
  | .tUndefB1 .. => true
  | .tUndefB2 .. => true
  | .tUndefB3 .. => true
  | .tUndefB6 .. => true
  | .tUndefB7 .. => true
  | .tUndefB8 .. => true
  | .tUndefB9 .. => true
  | .tUndefBA .. => true
  | .tUndefBB .. => true
  | .tUndefBE .. => true
  | .tUndefBF .. => true

end Sys2Proof
end

