-- ==== Sys2Proof/Decode.lean ====
section
/-! DEFINITION. The decoder, total on any word, halfword and byte list, and the encoder, both from the encoding rules
of 30_encoding.md. Reserved encodings are rejected by name. -/

namespace Sys2Proof

/-- Why a value is no instruction (R306). -/
inductive DecodeError where
  /-- R254, R266, R280: no line takes the word. -/
  | illegal
  /-- R253, R272, R285: NV or a should-be field that deviates. -/
  | unpredictable
  /-- Fewer bytes than the encoding mode's width; a fetch never gives this. -/
  | truncated
deriving DecidableEq, Repr

/-- The condition a 4-bit field names (R253); none for NV. -/
def Cond.ofBits (b : BitVec 4) : Option Cond :=
  if b = 0b0000#4 then some .eq else if b = 0b0001#4 then some .ne
  else if b = 0b0010#4 then some .cs else if b = 0b0011#4 then some .cc
  else if b = 0b0100#4 then some .mi else if b = 0b0101#4 then some .pl
  else if b = 0b0110#4 then some .vs else if b = 0b0111#4 then some .vc
  else if b = 0b1000#4 then some .hi else if b = 0b1001#4 then some .ls
  else if b = 0b1010#4 then some .ge else if b = 0b1011#4 then some .lt
  else if b = 0b1100#4 then some .gt else if b = 0b1101#4 then some .le
  else if b = 0b1110#4 then some .al else none

/-- The 4-bit field of a condition (R253). -/
def Cond.bits : Cond → BitVec 4
  | .eq => 0b0000#4 | .ne => 0b0001#4 | .cs => 0b0010#4 | .cc => 0b0011#4
  | .mi => 0b0100#4 | .pl => 0b0101#4 | .vs => 0b0110#4 | .vc => 0b0111#4
  | .hi => 0b1000#4 | .ls => 0b1001#4 | .ge => 0b1010#4 | .lt => 0b1011#4
  | .gt => 0b1100#4 | .le => 0b1101#4 | .al => 0b1110#4

/-- The shift type a 2-bit field names (R257). -/
def ShiftType.ofBits (b : BitVec 2) : ShiftType :=
  if b = 0b00#2 then .lsl else if b = 0b01#2 then .lsr else if b = 0b10#2 then .asr else .ror

/-- The 2-bit field of a shift type (R257). -/
def ShiftType.bits : ShiftType → BitVec 2
  | .lsl => 0b00#2 | .lsr => 0b01#2 | .asr => 0b10#2 | .ror => 0b11#2

/-- Bits `start + len - 1` down to `start` of an ARM word (R252). -/
abbrev field (w : Word) (start len : Nat) : BitVec len := w.extractLsb' start len

/-- Bits `start + len - 1` down to `start` of a Thumb halfword (R252). -/
abbrev fieldH (h : Half) (start len : Nat) : BitVec len := h.extractLsb' start len

/-- One bit of an ARM word. -/
abbrev flag (w : Word) (k : Nat) : Bool := field w k 1 == 1#1

/-- One bit of a Thumb halfword. -/
abbrev flagH (h : Half) (k : Nat) : Bool := fieldH h k 1 == 1#1

/-! ### ARM -/

/-- The multiply and swap space: bits 27:25 = 000, bits 7:4 = 1001 (R254 lines 2-4, R272). -/
def decodeMultiply (c : Cond) (w : Word) : Except DecodeError Instr :=
  if field w 22 3 = 0b000#3 then
    if flag w 21 then .ok (.mla c (flag w 20) (field w 16 4) (field w 12 4) (field w 8 4) (field w 0 4))
    else .ok (.mul c (flag w 20) (field w 16 4) (field w 12 4) (field w 8 4) (field w 0 4))
  else if field w 23 2 = 0b01#2 then
    if field w 21 2 = 0b00#2 then .ok (.umull c (flag w 20) (field w 16 4) (field w 12 4) (field w 8 4) (field w 0 4))
    else if field w 21 2 = 0b01#2 then
      .ok (.umlal c (flag w 20) (field w 16 4) (field w 12 4) (field w 8 4) (field w 0 4))
    else if field w 21 2 = 0b10#2 then
      .ok (.smull c (flag w 20) (field w 16 4) (field w 12 4) (field w 8 4) (field w 0 4))
    else .ok (.smlal c (flag w 20) (field w 16 4) (field w 12 4) (field w 8 4) (field w 0 4))
  else if field w 23 2 = 0b10#2 ∧ field w 20 2 = 0b00#2 then
    if field w 8 4 = 0#4 then
      if flag w 22 then .ok (.swpb c (field w 16 4) (field w 12 4) (field w 0 4))
      else .ok (.swp c (field w 16 4) (field w 12 4) (field w 0 4))
    else .error .unpredictable
  else .error .illegal

/-- The register-offset halfword transfers by L and SH (R263). -/
def decodeHalfReg (c : Cond) (w : Word) : Except DecodeError Instr :=
  if flag w 20 then
    if field w 5 2 = 0b01#2 then
      .ok (.ldrhReg c (flag w 24) (flag w 23) (flag w 21) (field w 16 4) (field w 12 4) (field w 0 4))
    else if field w 5 2 = 0b10#2 then
      .ok (.ldrsbReg c (flag w 24) (flag w 23) (flag w 21) (field w 16 4) (field w 12 4) (field w 0 4))
    else .ok (.ldrshReg c (flag w 24) (flag w 23) (flag w 21) (field w 16 4) (field w 12 4) (field w 0 4))
  else if field w 5 2 = 0b01#2 then
    .ok (.strhReg c (flag w 24) (flag w 23) (flag w 21) (field w 16 4) (field w 12 4) (field w 0 4))
  else .error .illegal

/-- The immediate-offset halfword transfers by L and SH (R263); the offset is bits 11:8 and 3:0. -/
def decodeHalfImm (c : Cond) (w : Word) : Except DecodeError Instr :=
  if flag w 20 then
    if field w 5 2 = 0b01#2 then
      .ok (.ldrhImm c (flag w 24) (flag w 23) (flag w 21) (field w 16 4) (field w 12 4) (field w 8 4 ++ field w 0 4))
    else if field w 5 2 = 0b10#2 then
      .ok (.ldrsbImm c (flag w 24) (flag w 23) (flag w 21) (field w 16 4) (field w 12 4) (field w 8 4 ++ field w 0 4))
    else
      .ok (.ldrshImm c (flag w 24) (flag w 23) (flag w 21) (field w 16 4) (field w 12 4) (field w 8 4 ++ field w 0 4))
  else if field w 5 2 = 0b01#2 then
    .ok (.strhImm c (flag w 24) (flag w 23) (flag w 21) (field w 16 4) (field w 12 4) (field w 8 4 ++ field w 0 4))
  else .error .illegal

/-- The halfword and signed transfers: bits 27:25 = 000, bits 7 and 4 set, bits 6:5 not 00 (R254 lines 5-6, R272). -/
def decodeHalf (c : Cond) (w : Word) : Except DecodeError Instr :=
  if flag w 22 then decodeHalfImm c w
  else if field w 8 4 = 0#4 then decodeHalfReg c w
  else .error .unpredictable

/-- The PSR transfers and BX: bits 27:23 = 00010, bit 20 = 0, bits 7 and 4 not both set (R254 lines 1, 7, 8; R266 (b);
R272). -/
def decodePsr (c : Cond) (w : Word) : Except DecodeError Instr :=
  if field w 4 4 = 0b0000#4 then
    if flag w 21 then
      if field w 12 4 = 0b1111#4 ∧ field w 8 4 = 0#4 then
        if flag w 22 then .ok (.msrSpsrReg c (field w 16 4) (field w 0 4))
        else .ok (.msrCpsrReg c (field w 16 4) (field w 0 4))
      else .error .unpredictable
    else if field w 16 4 = 0b1111#4 ∧ field w 8 4 = 0#4 ∧ field w 0 4 = 0#4 then
      .ok (.mrs c (flag w 22) (field w 12 4))
    else .error .unpredictable
  else if field w 4 4 = 0b0001#4 ∧ field w 21 2 = 0b01#2 then
    if field w 16 4 = 0b1111#4 ∧ field w 12 4 = 0b1111#4 ∧ field w 8 4 = 0b1111#4 then .ok (.bx c (field w 0 4))
    else .error .unpredictable
  else .error .illegal

/-- Data processing by opcode, given operand2 (R255). The caller has shown S = 1 for opcodes 1000 to 1011. -/
def decodeDataProc (c : Cond) (w : Word) (op2 : Operand2) : Instr :=
  if field w 21 4 = 0b0000#4 then .and c (flag w 20) (field w 16 4) (field w 12 4) op2
  else if field w 21 4 = 0b0001#4 then .eor c (flag w 20) (field w 16 4) (field w 12 4) op2
  else if field w 21 4 = 0b0010#4 then .sub c (flag w 20) (field w 16 4) (field w 12 4) op2
  else if field w 21 4 = 0b0011#4 then .rsb c (flag w 20) (field w 16 4) (field w 12 4) op2
  else if field w 21 4 = 0b0100#4 then .add c (flag w 20) (field w 16 4) (field w 12 4) op2
  else if field w 21 4 = 0b0101#4 then .adc c (flag w 20) (field w 16 4) (field w 12 4) op2
  else if field w 21 4 = 0b0110#4 then .sbc c (flag w 20) (field w 16 4) (field w 12 4) op2
  else if field w 21 4 = 0b0111#4 then .rsc c (flag w 20) (field w 16 4) (field w 12 4) op2
  else if field w 21 4 = 0b1000#4 then .tst c (field w 16 4) (field w 12 4) op2
  else if field w 21 4 = 0b1001#4 then .teq c (field w 16 4) (field w 12 4) op2
  else if field w 21 4 = 0b1010#4 then .cmp c (field w 16 4) (field w 12 4) op2
  else if field w 21 4 = 0b1011#4 then .cmn c (field w 16 4) (field w 12 4) op2
  else if field w 21 4 = 0b1100#4 then .orr c (flag w 20) (field w 16 4) (field w 12 4) op2
  else if field w 21 4 = 0b1101#4 then .mov c (flag w 20) (field w 16 4) (field w 12 4) op2
  else if field w 21 4 = 0b1110#4 then .bic c (flag w 20) (field w 16 4) (field w 12 4) op2
  else .mvn c (flag w 20) (field w 16 4) (field w 12 4) op2

/-- The shifted-register operand2 (R257). -/
def decodeShifted (w : Word) : Operand2 :=
  if flag w 4 then .regReg (field w 8 4) (ShiftType.ofBits (field w 5 2)) (field w 0 4)
  else .regImm (field w 7 5) (ShiftType.ofBits (field w 5 2)) (field w 0 4)

/-- Bits 27:25 = 000 (R254 lines 1-8 and 10). -/
def decode000 (c : Cond) (w : Word) : Except DecodeError Instr :=
  if flag w 7 && flag w 4 then
    if field w 5 2 = 0b00#2 then decodeMultiply c w else decodeHalf c w
  else if field w 23 2 = 0b10#2 ∧ flag w 20 = false then decodePsr c w
  else .ok (decodeDataProc c w (decodeShifted w))

/-- Bits 27:25 = 001 (R254 lines 9 and 10, R266 (c), R272). -/
def decode001 (c : Cond) (w : Word) : Except DecodeError Instr :=
  if field w 23 2 = 0b10#2 ∧ flag w 20 = false then
    if flag w 21 then
      if field w 12 4 = 0b1111#4 then
        if flag w 22 then .ok (.msrSpsrImm c (field w 16 4) (field w 8 4) (field w 0 8))
        else .ok (.msrCpsrImm c (field w 16 4) (field w 8 4) (field w 0 8))
      else .error .unpredictable
    else .error .illegal
  else .ok (decodeDataProc c w (.imm (field w 8 4) (field w 0 8)))

/-- The single data transfers, given the offset (R265). -/
def decodeSingle (c : Cond) (w : Word) (off : Offset) : Instr :=
  if flag w 24 = false && flag w 21 then
    if flag w 20 then
      if flag w 22 then .ldrbt c (flag w 23) (field w 16 4) (field w 12 4) off
      else .ldrt c (flag w 23) (field w 16 4) (field w 12 4) off
    else if flag w 22 then .strbt c (flag w 23) (field w 16 4) (field w 12 4) off
    else .strt c (flag w 23) (field w 16 4) (field w 12 4) off
  else if flag w 20 then
    if flag w 22 then .ldrb c (flag w 24) (flag w 23) (flag w 21) (field w 16 4) (field w 12 4) off
    else .ldr c (flag w 24) (flag w 23) (flag w 21) (field w 16 4) (field w 12 4) off
  else if flag w 22 then .strb c (flag w 24) (flag w 23) (flag w 21) (field w 16 4) (field w 12 4) off
  else .str c (flag w 24) (flag w 23) (flag w 21) (field w 16 4) (field w 12 4) off

/-- The classes of R254 by bits 27:25, for a word with condition c. -/
def decodeArmClass (c : Cond) (w : Word) : Except DecodeError Instr :=
  if field w 25 3 = 0b000#3 then decode000 c w
  else if field w 25 3 = 0b001#3 then decode001 c w
  else if field w 25 3 = 0b010#3 then .ok (decodeSingle c w (.imm (field w 0 12)))
  else if field w 25 3 = 0b011#3 then
    if flag w 4 then .ok (.undefinedArm c (field w 5 20) (field w 0 4))
    else .ok (decodeSingle c w (.reg (field w 7 5) (ShiftType.ofBits (field w 5 2)) (field w 0 4)))
  else if field w 25 3 = 0b100#3 then
    if flag w 20 then
      .ok (.ldm c (flag w 24) (flag w 23) (flag w 22) (flag w 21) (field w 16 4) (field w 0 16))
    else .ok (.stm c (flag w 24) (flag w 23) (flag w 22) (flag w 21) (field w 16 4) (field w 0 16))
  else if field w 25 3 = 0b101#3 then
    if flag w 24 then .ok (.bl c (field w 0 24)) else .ok (.b c (field w 0 24))
  else if field w 25 3 = 0b110#3 then .ok (.ldcStc c (field w 0 25))
  else if flag w 24 then .ok (.swi c (field w 0 24))
  else if flag w 4 then .ok (.mcrMrc c (field w 5 19) (field w 0 4))
  else .ok (.cdp c (field w 5 19) (field w 0 4))

/-- The instruction an ARM word is (R254). -/
def decodeArm (w : Word) : Except DecodeError Instr :=
  match Cond.ofBits (field w 28 4) with
  | none => .error .unpredictable
  | some c => decodeArmClass c w

/-! ### Thumb -/

/-- Format 4 by op (R284). -/
def decodeThumbAlu (h : Half) : Instr :=
  if fieldH h 6 4 = 0b0000#4 then .tAnd (fieldH h 3 3) (fieldH h 0 3)
  else if fieldH h 6 4 = 0b0001#4 then .tEor (fieldH h 3 3) (fieldH h 0 3)
  else if fieldH h 6 4 = 0b0010#4 then .tLslReg (fieldH h 3 3) (fieldH h 0 3)
  else if fieldH h 6 4 = 0b0011#4 then .tLsrReg (fieldH h 3 3) (fieldH h 0 3)
  else if fieldH h 6 4 = 0b0100#4 then .tAsrReg (fieldH h 3 3) (fieldH h 0 3)
  else if fieldH h 6 4 = 0b0101#4 then .tAdc (fieldH h 3 3) (fieldH h 0 3)
  else if fieldH h 6 4 = 0b0110#4 then .tSbc (fieldH h 3 3) (fieldH h 0 3)
  else if fieldH h 6 4 = 0b0111#4 then .tRorReg (fieldH h 3 3) (fieldH h 0 3)
  else if fieldH h 6 4 = 0b1000#4 then .tTst (fieldH h 3 3) (fieldH h 0 3)
  else if fieldH h 6 4 = 0b1001#4 then .tNeg (fieldH h 3 3) (fieldH h 0 3)
  else if fieldH h 6 4 = 0b1010#4 then .tCmpReg (fieldH h 3 3) (fieldH h 0 3)
  else if fieldH h 6 4 = 0b1011#4 then .tCmn (fieldH h 3 3) (fieldH h 0 3)
  else if fieldH h 6 4 = 0b1100#4 then .tOrr (fieldH h 3 3) (fieldH h 0 3)
  else if fieldH h 6 4 = 0b1101#4 then .tMul (fieldH h 3 3) (fieldH h 0 3)
  else if fieldH h 6 4 = 0b1110#4 then .tBic (fieldH h 3 3) (fieldH h 0 3)
  else .tMvn (fieldH h 3 3) (fieldH h 0 3)

/-- Format 5 (R285): the registers are H1 and H2 joined to the 3-bit fields. -/
def decodeThumbHi (h : Half) : Except DecodeError Instr :=
  if fieldH h 8 2 = 0b00#2 then .ok (.tAddHi (fieldH h 6 1 ++ fieldH h 3 3) (fieldH h 7 1 ++ fieldH h 0 3))
  else if fieldH h 8 2 = 0b01#2 then .ok (.tCmpHi (fieldH h 6 1 ++ fieldH h 3 3) (fieldH h 7 1 ++ fieldH h 0 3))
  else if fieldH h 8 2 = 0b10#2 then .ok (.tMovHi (fieldH h 6 1 ++ fieldH h 3 3) (fieldH h 7 1 ++ fieldH h 0 3))
  else if fieldH h 7 1 = 0#1 ∧ fieldH h 0 3 = 0#3 then .ok (.tBx (fieldH h 6 1 ++ fieldH h 3 3))
  else .error .unpredictable

/-- Bits 15:13 = 000: formats 1 and 2 (R281, R282). -/
def decodeThumb000 (h : Half) : Instr :=
  if fieldH h 11 2 = 0b00#2 then .tLslImm (fieldH h 6 5) (fieldH h 3 3) (fieldH h 0 3)
  else if fieldH h 11 2 = 0b01#2 then .tLsrImm (fieldH h 6 5) (fieldH h 3 3) (fieldH h 0 3)
  else if fieldH h 11 2 = 0b10#2 then .tAsrImm (fieldH h 6 5) (fieldH h 3 3) (fieldH h 0 3)
  else if fieldH h 9 2 = 0b00#2 then .tAddReg (fieldH h 6 3) (fieldH h 3 3) (fieldH h 0 3)
  else if fieldH h 9 2 = 0b01#2 then .tSubReg (fieldH h 6 3) (fieldH h 3 3) (fieldH h 0 3)
  else if fieldH h 9 2 = 0b10#2 then .tAddImm3 (fieldH h 6 3) (fieldH h 3 3) (fieldH h 0 3)
  else .tSubImm3 (fieldH h 6 3) (fieldH h 3 3) (fieldH h 0 3)

/-- Bits 15:13 = 001: format 3 (R283). -/
def decodeThumb001 (h : Half) : Instr :=
  if fieldH h 11 2 = 0b00#2 then .tMovImm8 (fieldH h 8 3) (fieldH h 0 8)
  else if fieldH h 11 2 = 0b01#2 then .tCmpImm8 (fieldH h 8 3) (fieldH h 0 8)
  else if fieldH h 11 2 = 0b10#2 then .tAddImm8 (fieldH h 8 3) (fieldH h 0 8)
  else .tSubImm8 (fieldH h 8 3) (fieldH h 0 8)

/-- Bits 15:13 = 010: formats 4 to 8 (R284-R288). -/
def decodeThumb010 (h : Half) : Except DecodeError Instr :=
  if flagH h 12 then
    if fieldH h 9 3 = 0b000#3 then .ok (.tStrReg (fieldH h 6 3) (fieldH h 3 3) (fieldH h 0 3))
    else if fieldH h 9 3 = 0b010#3 then .ok (.tStrbReg (fieldH h 6 3) (fieldH h 3 3) (fieldH h 0 3))
    else if fieldH h 9 3 = 0b100#3 then .ok (.tLdrReg (fieldH h 6 3) (fieldH h 3 3) (fieldH h 0 3))
    else if fieldH h 9 3 = 0b110#3 then .ok (.tLdrbReg (fieldH h 6 3) (fieldH h 3 3) (fieldH h 0 3))
    else if fieldH h 9 3 = 0b001#3 then .ok (.tStrhReg (fieldH h 6 3) (fieldH h 3 3) (fieldH h 0 3))
    else if fieldH h 9 3 = 0b101#3 then .ok (.tLdrhReg (fieldH h 6 3) (fieldH h 3 3) (fieldH h 0 3))
    else if fieldH h 9 3 = 0b011#3 then .ok (.tLdsbReg (fieldH h 6 3) (fieldH h 3 3) (fieldH h 0 3))
    else .ok (.tLdshReg (fieldH h 6 3) (fieldH h 3 3) (fieldH h 0 3))
  else if flagH h 11 then .ok (.tLdrPc (fieldH h 8 3) (fieldH h 0 8))
  else if flagH h 10 then decodeThumbHi h
  else .ok (decodeThumbAlu h)

/-- Bits 15:13 = 011: format 9 (R289). -/
def decodeThumb011 (h : Half) : Instr :=
  if fieldH h 11 2 = 0b00#2 then .tStrImm (fieldH h 6 5) (fieldH h 3 3) (fieldH h 0 3)
  else if fieldH h 11 2 = 0b01#2 then .tLdrImm (fieldH h 6 5) (fieldH h 3 3) (fieldH h 0 3)
  else if fieldH h 11 2 = 0b10#2 then .tStrbImm (fieldH h 6 5) (fieldH h 3 3) (fieldH h 0 3)
  else .tLdrbImm (fieldH h 6 5) (fieldH h 3 3) (fieldH h 0 3)

/-- Bits 15:13 = 100: formats 10 and 11 (R290, R291). -/
def decodeThumb100 (h : Half) : Instr :=
  if fieldH h 11 2 = 0b00#2 then .tStrhImm (fieldH h 6 5) (fieldH h 3 3) (fieldH h 0 3)
  else if fieldH h 11 2 = 0b01#2 then .tLdrhImm (fieldH h 6 5) (fieldH h 3 3) (fieldH h 0 3)
  else if fieldH h 11 2 = 0b10#2 then .tStrSp (fieldH h 8 3) (fieldH h 0 8)
  else .tLdrSp (fieldH h 8 3) (fieldH h 0 8)

/-- Bits 15:12 = 1011: formats 13 and 14 and the illegal space (R280, R293, R294). -/
def decodeThumb1011 (h : Half) : Instr :=
  if fieldH h 8 4 = 0b0000#4 then .tAdjustSp (flagH h 7) (fieldH h 0 7)
  else if fieldH h 8 4 = 0b0001#4 then .tUndefB1 (fieldH h 0 8)
  else if fieldH h 8 4 = 0b0010#4 then .tUndefB2 (fieldH h 0 8)
  else if fieldH h 8 4 = 0b0011#4 then .tUndefB3 (fieldH h 0 8)
  else if fieldH h 8 4 = 0b0100#4 then .tPush false (fieldH h 0 8)
  else if fieldH h 8 4 = 0b0101#4 then .tPush true (fieldH h 0 8)
  else if fieldH h 8 4 = 0b0110#4 then .tUndefB6 (fieldH h 0 8)
  else if fieldH h 8 4 = 0b0111#4 then .tUndefB7 (fieldH h 0 8)
  else if fieldH h 8 4 = 0b1000#4 then .tUndefB8 (fieldH h 0 8)
  else if fieldH h 8 4 = 0b1001#4 then .tUndefB9 (fieldH h 0 8)
  else if fieldH h 8 4 = 0b1010#4 then .tUndefBA (fieldH h 0 8)
  else if fieldH h 8 4 = 0b1011#4 then .tUndefBB (fieldH h 0 8)
  else if fieldH h 8 4 = 0b1100#4 then .tPop false (fieldH h 0 8)
  else if fieldH h 8 4 = 0b1101#4 then .tPop true (fieldH h 0 8)
  else if fieldH h 8 4 = 0b1110#4 then .tUndefBE (fieldH h 0 8)
  else .tUndefBF (fieldH h 0 8)

/-- Bits 15:13 = 101: formats 12 to 14 (R292-R294). -/
def decodeThumb101 (h : Half) : Instr :=
  if flagH h 12 then decodeThumb1011 h
  else if flagH h 11 then .tAddSp (fieldH h 8 3) (fieldH h 0 8)
  else .tAddPc (fieldH h 8 3) (fieldH h 0 8)

/-- Bits 15:13 = 110: formats 15 to 17 (R295-R297, R280). -/
def decodeThumb110 (h : Half) : Instr :=
  if flagH h 12 then
    match Cond.ofBits (fieldH h 8 4) with
    | none => .tSwi (fieldH h 0 8)
    | some .al => .tUndefCond (fieldH h 0 8)
    | some c => .tBcond c (fieldH h 0 8)
  else if flagH h 11 then .tLdmia (fieldH h 8 3) (fieldH h 0 8)
  else .tStmia (fieldH h 8 3) (fieldH h 0 8)

/-- Bits 15:13 = 111: formats 18 and 19 and the illegal BLX space (R298, R299, R280). -/
def decodeThumb111 (h : Half) : Instr :=
  if fieldH h 11 2 = 0b00#2 then .tB (fieldH h 0 11)
  else if fieldH h 11 2 = 0b01#2 then .tUndefBlx (fieldH h 0 11)
  else if fieldH h 11 2 = 0b10#2 then .tBlHigh (fieldH h 0 11)
  else .tBlLow (fieldH h 0 11)

/-- The instruction a Thumb halfword is (R280). -/
def decodeThumb (h : Half) : Except DecodeError Instr :=
  if fieldH h 13 3 = 0b000#3 then .ok (decodeThumb000 h)
  else if fieldH h 13 3 = 0b001#3 then .ok (decodeThumb001 h)
  else if fieldH h 13 3 = 0b010#3 then decodeThumb010 h
  else if fieldH h 13 3 = 0b011#3 then .ok (decodeThumb011 h)
  else if fieldH h 13 3 = 0b100#3 then .ok (decodeThumb100 h)
  else if fieldH h 13 3 = 0b101#3 then .ok (decodeThumb101 h)
  else if fieldH h 13 3 = 0b110#3 then .ok (decodeThumb110 h)
  else .ok (decodeThumb111 h)

/-! ### Bytes -/

/-- The instruction at the front of a byte list and the bytes after it, in the encoding mode T = thumb (R251). -/
def decodeBytes (thumb : Bool) (bs : List Byte) : Except DecodeError (Instr × List Byte) :=
  if thumb then
    match bs with
    | b0 :: b1 :: rest => (decodeThumb (b1 ++ b0)).map (·, rest)
    | _ => .error .truncated
  else
    match bs with
    | b0 :: b1 :: b2 :: b3 :: rest => (decodeArm (b3 ++ b2 ++ b1 ++ b0)).map (·, rest)
    | _ => .error .truncated

/-- The little-endian bytes of an instruction numbered as the opcode table numbers its bits. -/
def tableBytes (nbits w : Nat) : List Byte :=
  (List.range (nbits / 8)).map fun k => BitVec.ofNat 8 (w >>> (8 * k))

/-- The instruction the decoder reads from a table word: 16-bit rows are Thumb, 32-bit rows ARM (R250). -/
def decodeTableWord (nbits w : Nat) : Option Instr :=
  match decodeBytes (nbits == 16) (tableBytes nbits w) with
  | .ok (i, _) => some i
  | .error _ => none

/-! ### Encoder -/

/-- The words of an instruction: an ARM word or a Thumb halfword. -/
inductive Code where
  | arm (w : Word)
  | thumb (h : Half)
deriving DecidableEq, Repr

/-- Operand2: the I bit and bits 11:0 (R256, R257). -/
def Operand2.i : Operand2 → BitVec 1
  | .imm .. => 1#1
  | .regImm .. => 0#1
  | .regReg .. => 0#1

/-- Bits 11:0 of operand2 (R256, R257). -/
def Operand2.bits : Operand2 → BitVec 12
  | .imm rot imm8 => rot ++ imm8
  | .regImm amount ty rm => amount ++ ty.bits ++ 0#1 ++ rm
  | .regReg rs ty rm => rs ++ 0#1 ++ ty.bits ++ 1#1 ++ rm

/-- The I bit of a single transfer's offset (R265). -/
def Offset.i : Offset → BitVec 1
  | .imm _ => 0#1
  | .reg .. => 1#1

/-- Bits 11:0 of a single transfer's offset (R265). -/
def Offset.bits : Offset → BitVec 12
  | .imm off => off
  | .reg amount ty rm => amount ++ ty.bits ++ 0#1 ++ rm

/-- A flag as a bit. -/
abbrev bit (b : Bool) : BitVec 1 := BitVec.ofBool b

/-- `cond 00 I opcode S Rn Rd operand2` (R255). -/
def encDataProc (c : Cond) (op : BitVec 4) (s : Bool) (rn rd : RegNo) (op2 : Operand2) : Word :=
  c.bits ++ 0b00#2 ++ op2.i ++ op ++ bit s ++ rn ++ rd ++ op2.bits

/-- `cond 000000 A S Rd Rn Rs 1001 Rm` (R260). -/
def encMul (c : Cond) (a : BitVec 1) (s : Bool) (rd rn rs rm : RegNo) : Word :=
  c.bits ++ 0b000000#6 ++ a ++ bit s ++ rd ++ rn ++ rs ++ 0b1001#4 ++ rm

/-- `cond 00001 U A S RdHi RdLo Rs 1001 Rm` (R261). -/
def encMulLong (c : Cond) (ua : BitVec 2) (s : Bool) (rdHi rdLo rs rm : RegNo) : Word :=
  c.bits ++ 0b00001#5 ++ ua ++ bit s ++ rdHi ++ rdLo ++ rs ++ 0b1001#4 ++ rm

/-- `cond 00010 B 00 Rn Rd 0000 1001 Rm` (R262). -/
def encSwp (c : Cond) (b : BitVec 1) (rn rd rm : RegNo) : Word :=
  c.bits ++ 0b00010#5 ++ b ++ 0b00#2 ++ rn ++ rd ++ 0b0000#4 ++ 0b1001#4 ++ rm

/-- `cond 000 P U 0 W L Rn Rd 0000 1 SH 1 Rm` (R263). -/
def encHalfReg (c : Cond) (l : BitVec 1) (sh : BitVec 2) (p u w : Bool) (rn rd rm : RegNo) : Word :=
  c.bits ++ 0b000#3 ++ bit p ++ bit u ++ 0#1 ++ bit w ++ l ++ rn ++ rd ++ 0b0000#4 ++ 1#1 ++ sh ++ 1#1 ++ rm

/-- `cond 000 P U 1 W L Rn Rd offH 1 SH 1 offL` (R263). -/
def encHalfImm (c : Cond) (l : BitVec 1) (sh : BitVec 2) (p u w : Bool) (rn rd : RegNo) (off : BitVec 8) : Word :=
  c.bits ++ 0b000#3 ++ bit p ++ bit u ++ 1#1 ++ bit w ++ l ++ rn ++ rd ++ off.extractLsb' 4 4 ++ 1#1 ++ sh ++ 1#1
    ++ off.extractLsb' 0 4

/-- `cond 00010 R 10 mask 1111 00000000 Rm` (R259). -/
def encMsrReg (c : Cond) (r : BitVec 1) (mask : BitVec 4) (rm : RegNo) : Word :=
  c.bits ++ 0b00010#5 ++ r ++ 0b10#2 ++ mask ++ 0b1111#4 ++ 0b0000#4 ++ 0b0000#4 ++ rm

/-- `cond 00110 R 10 mask 1111 rotate imm8` (R259). -/
def encMsrImm (c : Cond) (r : BitVec 1) (mask rot : BitVec 4) (imm8 : BitVec 8) : Word :=
  c.bits ++ 0b00110#5 ++ r ++ 0b10#2 ++ mask ++ 0b1111#4 ++ rot ++ imm8

/-- `cond 01 I P U B W L Rn Rd offset` (R265). -/
def encSingle (c : Cond) (b l : BitVec 1) (p u w : Bool) (rn rd : RegNo) (off : Offset) : Word :=
  c.bits ++ 0b01#2 ++ off.i ++ bit p ++ bit u ++ b ++ bit w ++ l ++ rn ++ rd ++ off.bits

/-- `cond 100 P U S W L Rn register_list` (R267). -/
def encBlock (c : Cond) (l : BitVec 1) (p u s w : Bool) (rn : RegNo) (list : BitVec 16) : Word :=
  c.bits ++ 0b100#3 ++ bit p ++ bit u ++ bit s ++ bit w ++ l ++ rn ++ list

/-- `000 op offset5 Rs Rd` (R281). -/
def encT1 (op : BitVec 2) (off : BitVec 5) (rs rd : LowReg) : Half := 0b000#3 ++ op ++ off ++ rs ++ rd

/-- `00011 I op Rn/imm3 Rs Rd` (R282). -/
def encT2 (iop : BitVec 2) (x : BitVec 3) (rs rd : LowReg) : Half := 0b000#3 ++ 0b11#2 ++ iop ++ x ++ rs ++ rd

/-- `001 op Rd imm8` (R283). -/
def encT3 (op : BitVec 2) (rd : LowReg) (imm8 : BitVec 8) : Half := 0b001#3 ++ op ++ rd ++ imm8

/-- `010000 op Rs Rd` (R284). -/
def encT4 (op : BitVec 4) (rs rd : LowReg) : Half := 0b010#3 ++ 0#1 ++ 0#1 ++ 0#1 ++ op ++ rs ++ rd

/-- `010001 op H1 H2 Rs Rd` (R285). -/
def encT5 (op : BitVec 2) (rs rd : RegNo) : Half :=
  0b010#3 ++ 0#1 ++ 0#1 ++ 1#1 ++ op ++ rd.extractLsb' 3 1 ++ rs.extractLsb' 3 1 ++ rs.extractLsb' 0 3
    ++ rd.extractLsb' 0 3

/-- `0101 x3 Ro Rb Rd` (R287, R288): x3 is bits 11:9. -/
def encT78 (x : BitVec 3) (ro rb rd : LowReg) : Half := 0b010#3 ++ 1#1 ++ x ++ ro ++ rb ++ rd

/-- `011 B L offset5 Rb Rd` (R289). -/
def encT9 (bl : BitVec 2) (off : BitVec 5) (rb rd : LowReg) : Half := 0b011#3 ++ bl ++ off ++ rb ++ rd

/-- `1000 L offset5 Rb Rd` (R290): the first argument is bits 12:11. -/
def encT10 (x : BitVec 2) (off : BitVec 5) (rb rd : LowReg) : Half := 0b100#3 ++ x ++ off ++ rb ++ rd

/-- `1001 L Rd imm8` (R291): the first argument is bits 12:11. -/
def encT11 (x : BitVec 2) (rd : LowReg) (imm8 : BitVec 8) : Half := 0b100#3 ++ x ++ rd ++ imm8

/-- `1010 SP Rd imm8` (R292). -/
def encT12 (sp : BitVec 1) (rd : LowReg) (imm8 : BitVec 8) : Half := 0b101#3 ++ 0#1 ++ sp ++ rd ++ imm8

/-- `1011 xxxx rest` (R293, R294, R280): x is bits 11:8. -/
def encTMisc (x : BitVec 4) (rest : BitVec 8) : Half := 0b101#3 ++ 1#1 ++ x ++ rest

/-- `1100 L Rb rlist` (R295). -/
def encT15 (l : BitVec 1) (rb : LowReg) (list : BitVec 8) : Half := 0b110#3 ++ 0#1 ++ l ++ rb ++ list

/-- `1101 xxxx rest` (R296, R297, R280). -/
def encT16 (x : BitVec 4) (rest : BitVec 8) : Half := 0b110#3 ++ 1#1 ++ x ++ rest

/-- `111 xx offset11` (R298, R299, R280). -/
def encT18 (x : BitVec 2) (off : BitVec 11) : Half := 0b111#3 ++ x ++ off

/-- The word of an instruction (30_encoding.md). -/
def encode : Instr → Code
  | .bx c rm => .arm (c.bits ++ 0b00010#5 ++ 0#1 ++ 0b10#2 ++ 0b1111#4 ++ 0b1111#4 ++ 0b1111#4 ++ 0b0001#4 ++ rm)
  | .mul c s rd ignored rs rm => .arm (encMul c 0#1 s rd ignored rs rm)
  | .mla c s rd rn rs rm => .arm (encMul c 1#1 s rd rn rs rm)
  | .umull c s rdHi rdLo rs rm => .arm (encMulLong c 0b00#2 s rdHi rdLo rs rm)
  | .umlal c s rdHi rdLo rs rm => .arm (encMulLong c 0b01#2 s rdHi rdLo rs rm)
  | .smull c s rdHi rdLo rs rm => .arm (encMulLong c 0b10#2 s rdHi rdLo rs rm)
  | .smlal c s rdHi rdLo rs rm => .arm (encMulLong c 0b11#2 s rdHi rdLo rs rm)
  | .swp c rn rd rm => .arm (encSwp c 0#1 rn rd rm)
  | .swpb c rn rd rm => .arm (encSwp c 1#1 rn rd rm)
  | .strhReg c p u w rn rd rm => .arm (encHalfReg c 0#1 0b01#2 p u w rn rd rm)
  | .strhImm c p u w rn rd off => .arm (encHalfImm c 0#1 0b01#2 p u w rn rd off)
  | .ldrhReg c p u w rn rd rm => .arm (encHalfReg c 1#1 0b01#2 p u w rn rd rm)
  | .ldrhImm c p u w rn rd off => .arm (encHalfImm c 1#1 0b01#2 p u w rn rd off)
  | .ldrsbReg c p u w rn rd rm => .arm (encHalfReg c 1#1 0b10#2 p u w rn rd rm)
  | .ldrsbImm c p u w rn rd off => .arm (encHalfImm c 1#1 0b10#2 p u w rn rd off)
  | .ldrshReg c p u w rn rd rm => .arm (encHalfReg c 1#1 0b11#2 p u w rn rd rm)
  | .ldrshImm c p u w rn rd off => .arm (encHalfImm c 1#1 0b11#2 p u w rn rd off)
  | .mrs c r rd =>
    .arm (c.bits ++ 0b00010#5 ++ bit r ++ 0b00#2 ++ 0b1111#4 ++ rd ++ 0b0000#4 ++ 0b0000#4 ++ 0b0000#4)
  | .msrCpsrReg c mask rm => .arm (encMsrReg c 0#1 mask rm)
  | .msrCpsrImm c mask rot imm8 => .arm (encMsrImm c 0#1 mask rot imm8)
  | .msrSpsrReg c mask rm => .arm (encMsrReg c 1#1 mask rm)
  | .msrSpsrImm c mask rot imm8 => .arm (encMsrImm c 1#1 mask rot imm8)
  | .and c s rn rd op2 => .arm (encDataProc c 0b0000#4 s rn rd op2)
  | .eor c s rn rd op2 => .arm (encDataProc c 0b0001#4 s rn rd op2)
  | .sub c s rn rd op2 => .arm (encDataProc c 0b0010#4 s rn rd op2)
  | .rsb c s rn rd op2 => .arm (encDataProc c 0b0011#4 s rn rd op2)
  | .add c s rn rd op2 => .arm (encDataProc c 0b0100#4 s rn rd op2)
  | .adc c s rn rd op2 => .arm (encDataProc c 0b0101#4 s rn rd op2)
  | .sbc c s rn rd op2 => .arm (encDataProc c 0b0110#4 s rn rd op2)
  | .rsc c s rn rd op2 => .arm (encDataProc c 0b0111#4 s rn rd op2)
  | .tst c rn ignored op2 => .arm (encDataProc c 0b1000#4 true rn ignored op2)
  | .teq c rn ignored op2 => .arm (encDataProc c 0b1001#4 true rn ignored op2)
  | .cmp c rn ignored op2 => .arm (encDataProc c 0b1010#4 true rn ignored op2)
  | .cmn c rn ignored op2 => .arm (encDataProc c 0b1011#4 true rn ignored op2)
  | .orr c s rn rd op2 => .arm (encDataProc c 0b1100#4 s rn rd op2)
  | .mov c s ignored rd op2 => .arm (encDataProc c 0b1101#4 s ignored rd op2)
  | .bic c s rn rd op2 => .arm (encDataProc c 0b1110#4 s rn rd op2)
  | .mvn c s ignored rd op2 => .arm (encDataProc c 0b1111#4 s ignored rd op2)
  | .str c p u w rn rd off => .arm (encSingle c 0#1 0#1 p u w rn rd off)
  | .ldr c p u w rn rd off => .arm (encSingle c 0#1 1#1 p u w rn rd off)
  | .strb c p u w rn rd off => .arm (encSingle c 1#1 0#1 p u w rn rd off)
  | .ldrb c p u w rn rd off => .arm (encSingle c 1#1 1#1 p u w rn rd off)
  | .strt c u rn rd off => .arm (encSingle c 0#1 0#1 false u true rn rd off)
  | .ldrt c u rn rd off => .arm (encSingle c 0#1 1#1 false u true rn rd off)
  | .strbt c u rn rd off => .arm (encSingle c 1#1 0#1 false u true rn rd off)
  | .ldrbt c u rn rd off => .arm (encSingle c 1#1 1#1 false u true rn rd off)
  | .undefinedArm c hi lo => .arm (c.bits ++ 0b011#3 ++ hi ++ 1#1 ++ lo)
  | .stm c p u s w rn list => .arm (encBlock c 0#1 p u s w rn list)
  | .ldm c p u s w rn list => .arm (encBlock c 1#1 p u s w rn list)
  | .b c off => .arm (c.bits ++ 0b101#3 ++ 0#1 ++ off)
  | .bl c off => .arm (c.bits ++ 0b101#3 ++ 1#1 ++ off)
  | .ldcStc c rest => .arm (c.bits ++ 0b110#3 ++ rest)
  | .cdp c hi lo => .arm (c.bits ++ 0b111#3 ++ 0#1 ++ hi ++ 0#1 ++ lo)
  | .mcrMrc c hi lo => .arm (c.bits ++ 0b111#3 ++ 0#1 ++ hi ++ 1#1 ++ lo)
  | .swi c comment => .arm (c.bits ++ 0b111#3 ++ 1#1 ++ comment)
  | .tLslImm off rs rd => .thumb (encT1 0b00#2 off rs rd)
  | .tLsrImm off rs rd => .thumb (encT1 0b01#2 off rs rd)
  | .tAsrImm off rs rd => .thumb (encT1 0b10#2 off rs rd)
  | .tAddReg rn rs rd => .thumb (encT2 0b00#2 rn rs rd)
  | .tSubReg rn rs rd => .thumb (encT2 0b01#2 rn rs rd)
  | .tAddImm3 imm3 rs rd => .thumb (encT2 0b10#2 imm3 rs rd)
  | .tSubImm3 imm3 rs rd => .thumb (encT2 0b11#2 imm3 rs rd)
  | .tMovImm8 rd imm8 => .thumb (encT3 0b00#2 rd imm8)
  | .tCmpImm8 rd imm8 => .thumb (encT3 0b01#2 rd imm8)
  | .tAddImm8 rd imm8 => .thumb (encT3 0b10#2 rd imm8)
  | .tSubImm8 rd imm8 => .thumb (encT3 0b11#2 rd imm8)
  | .tAnd rs rd => .thumb (encT4 0b0000#4 rs rd)
  | .tEor rs rd => .thumb (encT4 0b0001#4 rs rd)
  | .tLslReg rs rd => .thumb (encT4 0b0010#4 rs rd)
  | .tLsrReg rs rd => .thumb (encT4 0b0011#4 rs rd)
  | .tAsrReg rs rd => .thumb (encT4 0b0100#4 rs rd)
  | .tAdc rs rd => .thumb (encT4 0b0101#4 rs rd)
  | .tSbc rs rd => .thumb (encT4 0b0110#4 rs rd)
  | .tRorReg rs rd => .thumb (encT4 0b0111#4 rs rd)
  | .tTst rs rd => .thumb (encT4 0b1000#4 rs rd)
  | .tNeg rs rd => .thumb (encT4 0b1001#4 rs rd)
  | .tCmpReg rs rd => .thumb (encT4 0b1010#4 rs rd)
  | .tCmn rs rd => .thumb (encT4 0b1011#4 rs rd)
  | .tOrr rs rd => .thumb (encT4 0b1100#4 rs rd)
  | .tMul rs rd => .thumb (encT4 0b1101#4 rs rd)
  | .tBic rs rd => .thumb (encT4 0b1110#4 rs rd)
  | .tMvn rs rd => .thumb (encT4 0b1111#4 rs rd)
  | .tAddHi rs rd => .thumb (encT5 0b00#2 rs rd)
  | .tCmpHi rs rd => .thumb (encT5 0b01#2 rs rd)
  | .tMovHi rs rd => .thumb (encT5 0b10#2 rs rd)
  | .tBx rs => .thumb (encT5 0b11#2 rs 0#4)
  | .tLdrPc rd imm8 => .thumb (0b010#3 ++ 0#1 ++ 1#1 ++ rd ++ imm8)
  | .tStrReg ro rb rd => .thumb (encT78 0b000#3 ro rb rd)
  | .tStrbReg ro rb rd => .thumb (encT78 0b010#3 ro rb rd)
  | .tLdrReg ro rb rd => .thumb (encT78 0b100#3 ro rb rd)
  | .tLdrbReg ro rb rd => .thumb (encT78 0b110#3 ro rb rd)
  | .tStrhReg ro rb rd => .thumb (encT78 0b001#3 ro rb rd)
  | .tLdrhReg ro rb rd => .thumb (encT78 0b101#3 ro rb rd)
  | .tLdsbReg ro rb rd => .thumb (encT78 0b011#3 ro rb rd)
  | .tLdshReg ro rb rd => .thumb (encT78 0b111#3 ro rb rd)
  | .tStrImm off rb rd => .thumb (encT9 0b00#2 off rb rd)
  | .tLdrImm off rb rd => .thumb (encT9 0b01#2 off rb rd)
  | .tStrbImm off rb rd => .thumb (encT9 0b10#2 off rb rd)
  | .tLdrbImm off rb rd => .thumb (encT9 0b11#2 off rb rd)
  | .tStrhImm off rb rd => .thumb (encT10 0b00#2 off rb rd)
  | .tLdrhImm off rb rd => .thumb (encT10 0b01#2 off rb rd)
  | .tStrSp rd imm8 => .thumb (encT11 0b10#2 rd imm8)
  | .tLdrSp rd imm8 => .thumb (encT11 0b11#2 rd imm8)
  | .tAddPc rd imm8 => .thumb (encT12 0#1 rd imm8)
  | .tAddSp rd imm8 => .thumb (encT12 1#1 rd imm8)
  | .tAdjustSp s imm7 => .thumb (encTMisc 0b0000#4 (bit s ++ imm7))
  | .tPush r list => .thumb (encTMisc (0b010#3 ++ bit r) list)
  | .tPop r list => .thumb (encTMisc (0b110#3 ++ bit r) list)
  | .tStmia rb list => .thumb (encT15 0#1 rb list)
  | .tLdmia rb list => .thumb (encT15 1#1 rb list)
  | .tSwi imm8 => .thumb (encT16 0b1111#4 imm8)
  | .tBcond c off => .thumb (encT16 c.bits off)
  | .tB off => .thumb (encT18 0b00#2 off)
  | .tBlHigh off => .thumb (encT18 0b10#2 off)
  | .tBlLow off => .thumb (encT18 0b11#2 off)
  | .tUndefCond rest => .thumb (encT16 0b1110#4 rest)
  | .tUndefBlx rest => .thumb (encT18 0b01#2 rest)
  | .tUndefB1 rest => .thumb (encTMisc 0b0001#4 rest)
  | .tUndefB2 rest => .thumb (encTMisc 0b0010#4 rest)
  | .tUndefB3 rest => .thumb (encTMisc 0b0011#4 rest)
  | .tUndefB6 rest => .thumb (encTMisc 0b0110#4 rest)
  | .tUndefB7 rest => .thumb (encTMisc 0b0111#4 rest)
  | .tUndefB8 rest => .thumb (encTMisc 0b1000#4 rest)
  | .tUndefB9 rest => .thumb (encTMisc 0b1001#4 rest)
  | .tUndefBA rest => .thumb (encTMisc 0b1010#4 rest)
  | .tUndefBB rest => .thumb (encTMisc 0b1011#4 rest)
  | .tUndefBE rest => .thumb (encTMisc 0b1110#4 rest)
  | .tUndefBF rest => .thumb (encTMisc 0b1111#4 rest)

/-- The decoder on a code of either mode. -/
def Code.decode : Code → Except DecodeError Instr
  | .arm w => decodeArm w
  | .thumb h => decodeThumb h

/-- The bits of a code, as the word a fault record holds (R25). -/
def Code.word : Code → Word
  | .arm w => w
  | .thumb h => h.setWidth 32

/-- The encoding mode of an instruction. -/
def Instr.isThumb (i : Instr) : Bool :=
  match encode i with
  | .arm _ => false
  | .thumb _ => true

end Sys2Proof
end

