-- ==== Sys2Proof/Config.lean ====
section
/-! DEFINITION. What the spec leaves open (00_scope.md R15-R20). The free values are opaque constants: no proof
can see one. The parameters that choose between named behaviours form the record Params, which the launch fixes
and State carries, so that a statement about every state is a statement about every choice of them. -/

namespace Sys2Proof

namespace Config

/-- The k-th draw of a run (R20): a free 32-bit value, narrowed to the width of the place that asks for it.
`State.draws` counts the draws taken. -/
opaque draw : Nat → Word

/-- What a byte of a backing store holds before anything is written to it (R1181, D58): one free value per byte,
fixed for the run. The argument is the byte's storage address. It also stands for the bytes of the images the
host supplies (R15), where a launch lists none. -/
opaque launchByte : Nat → Byte

/-- KEYS (R18, R1120): the pressed keys as a function of the cycle counter, free. -/
opaque keys : Nat → BitVec 10

/-- CPSR.N, Z, C and V at ColdReset, in bits 31:28 (R91, R121): free, fixed for the run. -/
opaque launchFlags : Word

/-- The colours of the frame and line buffers at launch (R952): a free value for each place, the 38400 of the frame
buffer row by row and then the 240 of the line buffer. -/
opaque launchColour : Nat → Half

/-- GPIO_DEVICE (R18, R1141, D46): the input pins at a read, free. The device receives the data-register writes so far,
newest first, each with the pin values and the direction register; the index of the draw stands for all else it may
depend on, so that the default, no device with a draw at each read, is one such function (log entry 13). -/
opaque gpioDevice : List (BitVec 4 × BitVec 4) → Nat → BitVec 4

/-- SENTINEL(8) (R16, R172). -/
opaque sentinel8 : Byte

/-- SENTINEL(16) (R16, R172). -/
opaque sentinel16 : Half

/-- SENTINEL(32) (R16, R172). -/
opaque sentinel32 : Word

end Config

/-- STOP_POLICY (R16, D24). -/
inductive StopPolicy where
  | stuck
  | ignore
deriving DecidableEq, Repr

/-- DMA_ZERO_COUNT (R16, D30). -/
inductive ZeroCount where
  | noOp
  | max
deriving DecidableEq, Repr

/-- The event sources of R851, in the reference order of EVENT_TIE_ORDER (D28). The serial stub is never
scheduled (R81). -/
inductive EventSource where
  | ppu
  | timer0
  | timer1
  | timer2
  | timer3
  | apuFrame
  | apuSampler
  | serial
deriving DecidableEq, Repr

/-- MIX (R19, R1100, D40): the reference function, or another, which is then the free `Config.mix`. -/
inductive Mixing where
  | reference
  | other
deriving DecidableEq, Repr

/-- The parameters of R15-R19 that choose between behaviours, fixed for a run. -/
structure Params where
  /-- STOP_POLICY (D24). -/
  stopPolicy : StopPolicy
  /-- DMA_ZERO_COUNT (D30). -/
  zeroCount : ZeroCount
  /-- IO_BYTE_WRITE_POLICY (D12): the I/O offsets at which an 8-bit write is ignored; elsewhere it merges. -/
  ioByteIgnore : List Nat
  /-- EVENT_TIE_ORDER (D28); a source the list leaves out comes after those it names. -/
  tieOrder : List EventSource
  /-- FLASH_ID (D93): the manufacturer byte. -/
  flashMaker : Byte
  /-- FLASH_ID (D93): the device byte. -/
  flashDevice : Byte
  /-- round(2^24 / AUDIO_SAMPLE_RATE) (R1100, D40). -/
  samplePeriod : Nat
  /-- MIX (R1100, D40). -/
  mixing : Mixing
  /-- ICACHE_PAGE_BYTES (D13). -/
  icachePageBytes : Nat
deriving DecidableEq, Repr

/-- The defaults the spec names (D12, D13, D24, D28, D30, D93). The sample period is the model's choice, 2^24 / 32768
(log entry 20). -/
def Params.default : Params where
  stopPolicy := .stuck
  zeroCount := .noOp
  ioByteIgnore := []
  tieOrder := [.ppu, .timer0, .timer1, .timer2, .timer3, .apuFrame, .apuSampler, .serial]
  flashMaker := 0x32#8
  flashDevice := 0x1B#8
  samplePeriod := 512
  mixing := .reference
  icachePageBytes := 512

end Sys2Proof
end

