-- ==== Sys2Proof/Machine/State.lean ====
section
/-! DEFINITION. The state of the machine as plain data (10_state.md, with the device state its R89 points to), the
reasons a step can stop, and the state after reset (R120, R121, R1180). -/

namespace Sys2Proof.Machine

/-! ### The fault record -/

/-- A register that may be marked unwritten (R91), by its place in `Cpu.gpr` or `Cpu.spsr`. -/
inductive StoredReg where
  | general (k : Fin 30)
  | saved (k : Fin 5)
deriving DecidableEq, Repr

/-- The fault record (R25, R90): a reason with the program counter and what the reason adds. -/
inductive FaultRecord where
  /-- R368, R590, R280: the word. -/
  | illegalInstruction (pc : Word) (word : Word)
  /-- D4: the word; of a wide save memory write (D71), by the model's choice the aligned address (log entry 32). -/
  | unpredictable (pc : Word) (info : Word)
  /-- R205, D14: the address written. -/
  | selfModifyHazard (pc : Word) (addr : Word)
  /-- R369, D16: the register, by its place (log entry 33). -/
  | unwrittenRegister (pc : Word) (reg : StoredReg)
deriving DecidableEq, Repr

/-! ### CPU -/

/-- A status register (R65, R67). Bits 27:8 read as zero and ignore writes (D61), so they are not stored. -/
structure Psr where
  /-- Bit 31. -/
  n : Bool
  /-- Bit 30. -/
  z : Bool
  /-- Bit 29. -/
  c : Bool
  /-- Bit 28. -/
  v : Bool
  /-- Bit 7: IRQ disabled. -/
  i : Bool
  /-- Bit 6: FIQ disabled. -/
  f : Bool
  /-- Bit 5: Thumb state. -/
  t : Bool
  /-- Bits 4:0, the mode field (R52). An SPSR may hold an illegal one (R67). -/
  mode : BitVec 5
deriving DecidableEq, Repr

/-- The register file, the program counter and the status registers (R51). -/
structure Cpu where
  /-- The 30 stored general registers of R51, in the order of `phys` (Machine/Operands.lean): R0-R7; R8_usr-R12_usr,
  R13_usr, R14_usr; R8_fiq-R12_fiq, R13_fiq, R14_fiq; R13 and R14 of irq, svc, abt, und. -/
  gpr : Vector Word 30
  /-- R15: the address of the executing instruction (R60). -/
  pc : Word
  /-- CPSR (R65). -/
  cpsr : Psr
  /-- SPSR of fiq, irq, svc, abt, und, in that order (R67). -/
  spsr : Vector Psr 5
  /-- The written marks of the general registers, in the places of `gpr` (R91). -/
  written : Vector Bool 30
  /-- The written marks of the SPSRs, in the places of `spsr` (R91). -/
  spsrWritten : Vector Bool 5
deriving DecidableEq, Repr

/-- Memory: a byte for each storage address that has been written or loaded, addresses strictly rising. -/
abbrev Memory := List Host.Cell

/-- One memoized instruction of the decoded-instruction cache (R195-R197). -/
structure CacheEntry where
  /-- The storage address of the instruction. -/
  key : Nat
  /-- The encoding mode. -/
  thumb : Bool
  /-- The instruction word, which fixes the decode (R197). -/
  word : Word
deriving DecidableEq, Repr

/-- The interrupt controller (R810). -/
structure Irq where
  /-- IE bits 13:0. -/
  ie : BitVec 14
  /-- IF bits 13:0. -/
  ifl : BitVec 14
  /-- IME bit 0. -/
  ime : Bool
deriving DecidableEq, Repr

/-! ### PPU -/

/-- The line phase (R952). -/
inductive Phase where
  | hdraw
  | hblank
deriving DecidableEq, Repr

/-- The affine registers and internal reference points of BG2 or BG3 (R965, R966, R988, R990). -/
structure Affine where
  /-- BGkPA. -/
  pa : Half
  /-- BGkPB. -/
  pb : Half
  /-- BGkPC. -/
  pc : Half
  /-- BGkPD. -/
  pd : Half
  /-- BGkX, 20.8 signed. -/
  x : BitVec 28
  /-- BGkY, 20.8 signed. -/
  y : BitVec 28
  /-- X_int. -/
  xInt : BitVec 28
  /-- Y_int. -/
  yInt : BitVec 28
  /-- Xm, the mosaic reference point. -/
  xm : BitVec 28
  /-- Ym. -/
  ym : BitVec 28
deriving DecidableEq, Repr

/-- The video renderer (R952, R960-R972). -/
structure Ppu where
  /-- DISPCNT; bit 3 stays 0 (R960). -/
  dispcnt : Half
  /-- The stored bits of DISPSTAT, 15:8 and 5:3 (R961); its flags are computed from vcount and phase. -/
  dispstat : Half
  /-- The line counter, 0 to 227. -/
  vcount : Nat
  /-- The line phase. -/
  phase : Phase
  /-- next_ppu, the time of the next phase change. -/
  nextPpu : Nat
  /-- BG0CNT to BG3CNT (R963). -/
  bgcnt : Vector Half 4
  /-- BGkHOFS bits 8:0 (R964). -/
  hofs : Vector (BitVec 9) 4
  /-- BGkVOFS bits 8:0 (R964). -/
  vofs : Vector (BitVec 9) 4
  /-- BG2 and BG3. -/
  affine : Vector Affine 2
  /-- WIN0H (R967). -/
  win0h : Half
  /-- WIN1H. -/
  win1h : Half
  /-- WIN0V. -/
  win0v : Half
  /-- WIN1V. -/
  win1v : Half
  /-- WININ (R968). -/
  winin : Half
  /-- WINOUT. -/
  winout : Half
  /-- MOSAIC (R969). -/
  mosaic : Half
  /-- BLDCNT (R970). -/
  bldcnt : Half
  /-- BLDALPHA (R971). -/
  bldalpha : Half
  /-- BLDY bits 4:0 (R972). -/
  bldy : BitVec 5
  /-- The frame buffer: 160 rows of 240 colours (R952); a row is free until it is composed (log entry 23). -/
  frame : Vector (Vector Half 240) 160
  /-- The line buffer: the line composed last. -/
  lineBuf : Vector Half 240
deriving DecidableEq, Repr

/-! ### APU -/

/-- What every PSG channel keeps (R1051). Channel 3 has no envelope: its `vol` and `envt` stay 0. -/
structure Channel where
  /-- The channel-on flag. -/
  on : Bool
  /-- The length counter. -/
  len : Nat
  /-- The current volume, 0 to 15. -/
  vol : Nat
  /-- The envelope timer. -/
  envt : Nat
  /-- phase_t, the cycle of the last generator step (R1075). -/
  phaseT : Nat
deriving DecidableEq, Repr

/-- The audio synthesizer (R1051, R1053-R1064). Wave RAM is in `State.mem`. -/
structure Apu where
  /-- SOUND1CNT_L. -/
  cnt1L : Half
  /-- SOUND1CNT_H. -/
  cnt1H : Half
  /-- SOUND1CNT_X; bit 15 is not stored. -/
  cnt1X : Half
  /-- SOUND2CNT_L. -/
  cnt2L : Half
  /-- SOUND2CNT_H; bit 15 is not stored. -/
  cnt2H : Half
  /-- SOUND3CNT_L. -/
  cnt3L : Half
  /-- SOUND3CNT_H. -/
  cnt3H : Half
  /-- SOUND3CNT_X; bit 15 is not stored. -/
  cnt3X : Half
  /-- SOUND4CNT_L. -/
  cnt4L : Half
  /-- SOUND4CNT_H; bit 15 is not stored. -/
  cnt4H : Half
  /-- SOUNDCNT_L. -/
  cntL : Half
  /-- SOUNDCNT_H; bits 11 and 15 are not stored. -/
  cntH : Half
  /-- SOUNDCNT_X bit 7. -/
  master : Bool
  /-- SOUNDBIAS. -/
  bias : Half
  /-- Channels 1 to 4. -/
  ch : Vector Channel 4
  /-- duty_pos of channels 1 and 2. -/
  dutyPos : Vector (BitVec 3) 2
  /-- The sweep shadow frequency. -/
  shadow : BitVec 11
  /-- The sweep timer. -/
  sweept : Nat
  /-- Sweep active. -/
  sweepOn : Bool
  /-- wave_pos. -/
  wavePos : BitVec 5
  /-- wave_bank. -/
  waveBank : Bool
  /-- The noise shift register. -/
  lfsr : BitVec 15
  /-- fifo[A], oldest byte first. -/
  fifoA : List Byte
  /-- fifo[B], oldest byte first. -/
  fifoB : List Byte
  /-- cur[A]. -/
  curA : Byte
  /-- cur[B]. -/
  curB : Byte
  /-- Frame sequencer step. -/
  fsStep : BitVec 3
  /-- Next frame sequencer time. -/
  nextFs : Nat
  /-- Next output sample time. -/
  nextSmp : Nat
deriving DecidableEq, Repr

/-! ### DMA and timers -/

/-- A DMA channel (R871-R873). -/
structure DmaChannel where
  /-- DMAnSAD as stored. -/
  sad : Word
  /-- DMAnDAD as stored. -/
  dad : Word
  /-- DMAnCNT_L as stored. -/
  cntL : Half
  /-- DMAnCNT_H; bit 15 is the enable (armed) flag. -/
  cntH : Half
  /-- The internal source pointer. -/
  isrc : Word
  /-- The internal destination pointer. -/
  idst : Word
  /-- The remaining element count, 0 to 0x10000. -/
  icount : Nat
deriving DecidableEq, Repr

/-- The DMA controller (R870-R880). -/
structure Dma where
  /-- Channels 0 to 3. -/
  chan : Vector DmaChannel 4
  /-- Triggers held until the running transfer ends (D81), by channel, channel 0 first (R870). Empty between steps. -/
  held : List (Fin 4)
  /-- The channel whose transfer is running. None between steps. -/
  running : Option (Fin 4)
deriving DecidableEq, Repr

/-- A timer (R921). -/
structure Timer where
  /-- The reload value. -/
  reload : Half
  /-- The counter at the base time. -/
  start : Nat
  /-- The base time. -/
  t0 : Nat
  /-- The stored counter. -/
  count : Nat
  /-- The stored bits 7, 6 and 2:0 of TMnCNT_H (R923). -/
  ctl : Byte
  /-- The next overflow time, if the timer runs and does not cascade. -/
  next : Option Nat
deriving DecidableEq, Repr

/-! ### Serial stub, cartridge -/

/-- The serial registers, storage only (R1130). -/
structure Sio where
  /-- 0x120. -/
  multi0 : Half
  /-- 0x122. -/
  multi1 : Half
  /-- 0x124. -/
  multi2 : Half
  /-- 0x126. -/
  multi3 : Half
  /-- SIOCNT. -/
  siocnt : Half
  /-- SIOMLT_SEND / SIODATA8. -/
  send : Half
  /-- RCNT. -/
  rcnt : Half
  /-- JOYCNT. -/
  joycnt : Half
  /-- JOY_RECV, low half. -/
  recvL : Half
  /-- JOY_RECV, high half. -/
  recvH : Half
  /-- JOY_TRANS, low half. -/
  transL : Half
  /-- JOY_TRANS, high half. -/
  transH : Half
  /-- JOYSTAT. -/
  joystat : Half
deriving DecidableEq, Repr

/-- The GPIO window's registers (R1140). -/
structure Gpio where
  /-- Data: the last written pin values. -/
  data : BitVec 4
  /-- Direction: 1 = driven by the console. -/
  dir : BitVec 4
  /-- What GPIO_DEVICE has received (R1141): the data-register writes, each with the pin values and the direction
  register, newest first. -/
  writes : List (BitVec 4 × BitVec 4)
  /-- Control bit 0: the registers are readable. -/
  readable : Bool
deriving DecidableEq, Repr

/-- The savedata backend, fixed for a run (R1151). -/
inductive Backend where
  | sram
  | flash64
  | flash128
  | eeprom
deriving DecidableEq, Repr

/-- fl_stage, the unlock progress (R1155). -/
inductive FlashStage where
  | idle
  | first
  | unlocked
deriving DecidableEq, Repr

/-- fl_pending (R1155). -/
inductive FlashPending where
  | none
  | erase
  | program
  | bank
deriving DecidableEq, Repr

/-- The Flash protocol state (R1155). -/
structure Flash where
  /-- fl_stage. -/
  stage : FlashStage
  /-- fl_id. -/
  idMode : Bool
  /-- fl_pending. -/
  pending : FlashPending
  /-- fl_bank. -/
  bank : Bool
deriving DecidableEq, Repr

/-- ee_bits (R1162). -/
inductive EepromBits where
  | six
  | fourteen
  | undecided
deriving DecidableEq, Repr

/-- The EEPROM protocol state (R1162). -/
structure Eeprom where
  /-- ee_bits. -/
  bits : EepromBits
  /-- ee_in, first received bit first. -/
  inBits : List Bool
  /-- ee_out: block number and read position. -/
  out : Option (Nat × Nat)
deriving DecidableEq, Repr

/-- The savedata backend and its protocol state (R1150-R1166). Its bytes are in `State.mem`. -/
structure Save where
  /-- The backend. -/
  backend : Backend
  /-- Flash state. -/
  flash : Flash
  /-- EEPROM state. -/
  eeprom : Eeprom
deriving DecidableEq, Repr

/-! ### Output -/

/-- What the host has received of the run (R1215), each newest first; no step reads it (log entry 20). -/
structure Output where
  /-- The frames handed over at the starts of line 160 (R996). -/
  frames : List (Vector (Vector Half 240) 160)
  /-- The audio stream (R1100): the stereo pairs, left and right. -/
  audio : List (Int × Int)
deriving DecidableEq, Repr

/-! ### The machine -/

/-- The whole state (R54). -/
structure State where
  /-- Registers. -/
  cpu : Cpu
  /-- The shared cycle counter (R80). -/
  cycles : Nat
  /-- R85. -/
  halted : Bool
  /-- R86. -/
  stopped : Bool
  /-- The fault record (R90): none while the machine runs; a step in a state that holds one answers it. -/
  fault : Option FaultRecord
  /-- The bytes of every backing store, by storage address (Machine/Memory.lean). -/
  mem : Memory
  /-- len(BIOS_IMAGE) (R15). -/
  biosLen : Nat
  /-- len(ROM_IMAGE) (R15). -/
  romLen : Nat
  /-- The parameters of the run. -/
  params : Params
  /-- The number of draws taken (R20): the model's own counter for free values (log entry 5). -/
  draws : Nat
  /-- The decoded-instruction cache (R195), transparent (R200). -/
  icache : List CacheEntry
  /-- IE, IF, IME. -/
  irq : Irq
  /-- Video. -/
  ppu : Ppu
  /-- Audio. -/
  apu : Apu
  /-- DMA. -/
  dma : Dma
  /-- Timers 0 to 3. -/
  timers : Vector Timer 4
  /-- KEYCNT (R1121). -/
  keycnt : Half
  /-- Serial stub. -/
  sio : Sio
  /-- WAITCNT, bits 14 and 12:0 (R183). -/
  waitcnt : Half
  /-- POSTFLG bit 0 (R843). -/
  postflg : Bool
  /-- GPIO window. -/
  gpio : Gpio
  /-- Savedata backend. -/
  save : Save
  /-- What the host has received. -/
  output : Output
deriving DecidableEq, Repr

/-! ### Reasons to stop -/

/-- The reasons a step ends without a next state (R25). Each carries the state it leaves: what the step wrote before the
fault stays written, and the record is kept in its `fault` (R90, R354). -/
inductive Fault where
  /-- R368: raised by the step for a word no decode line takes, and by the meanings of the coprocessor and undefined
  rows (R590, R280). The spec's own outcome; safe. -/
  | illegalInstruction (pc : Word) (word : Word) (left : State)
  /-- D4: raised at decode for NV and should-be fields (R253, R272), by a meaning for a forbidden operand, and by a
  store for a wide write to SRAM or Flash (D71). The spec's own outcome; safe. The second argument is the word; of a wide
  save memory write, for which the spec names none, it is the aligned address, the model's choice (log entry 32). -/
  | unpredictable (pc : Word) (info : Word) (left : State)
  /-- R205, D14: raised by a CPU store or DMA element that writes the next two instruction slots. The spec's own
  outcome; safe. The pc of a DMA element in the event pass is the next instruction's, the model's choice (log entry
  25). -/
  | selfModifyHazard (pc : Word) (addr : Word) (left : State)
  /-- R369, D16: raised by the step for an instruction that reads a register nothing has written since ColdReset. The
  spec's own outcome; safe. Which of several such registers it names is the model's choice (log entry 33). -/
  | unwrittenRegister (pc : Word) (reg : StoredReg) (left : State)
  /-- R86, R850: raised by the step in Stop mode under STOP_POLICY = Stuck; the spec's Stuck. Safe. -/
  | stopped (left : State)
  /-- Raised when an event pass or a chain of held DMA triggers does not end within `passLimit` rounds: the step has
  no end (log entry 10). Safe. -/
  | endless (left : State)
deriving DecidableEq, Repr

/-- The reasons a step is refused. -/
inductive Refusal where
  /-- Answered by the dispatch for an instruction without a meaning; safe. -/
  | notModelled (mnemonic : String)
deriving DecidableEq, Repr

/-! ### Reset -/

/-- A status register of zeros, the value of every SPSR at reset (log entry 2). -/
def Psr.zero : Psr :=
  { n := false, z := false, c := false, v := false, i := false, f := false, t := false, mode := 0#5 }

/-- CPSR at ColdReset (R121): Supervisor, I = F = 1, ARM state; the flags are the model's choice (log entry 3). -/
def Psr.reset : Psr :=
  { n := false, z := false, c := false, v := false, i := true, f := true, t := false, mode := 0b10011#5 }

/-- The CPU at ColdReset (R121); the general registers and SPSRs hold 0 by choice, and are marked written so that a
program can run from State.reset (log entry 2). `LaunchInput.coldReset` has the marks of R91. -/
def Cpu.reset : Cpu :=
  { gpr := Vector.replicate 30 0#32, pc := 0#32, cpsr := Psr.reset, spsr := Vector.replicate 5 Psr.zero,
    written := Vector.replicate 30 true, spsrWritten := Vector.replicate 5 true }

/-- BG2 or BG3 at ColdReset (R120). -/
def Affine.reset : Affine :=
  { pa := 0#16, pb := 0#16, pc := 0#16, pd := 0#16, x := 0#28, y := 0#28, xInt := 0#28, yInt := 0#28, xm := 0#28,
    ym := 0#28 }

/-- The PPU at ColdReset (R120, R952). -/
def Ppu.reset : Ppu :=
  { dispcnt := 0x0080#16, dispstat := 0#16, vcount := 0, phase := .hdraw, nextPpu := 1006,
    bgcnt := Vector.replicate 4 0#16, hofs := Vector.replicate 4 0#9, vofs := Vector.replicate 4 0#9,
    affine := Vector.replicate 2 Affine.reset, win0h := 0#16, win1h := 0#16, win0v := 0#16, win1v := 0#16,
    winin := 0#16, winout := 0#16, mosaic := 0#16, bldcnt := 0#16, bldalpha := 0#16, bldy := 0#5,
    frame := Vector.ofFn fun y => Vector.ofFn fun x => Config.launchColour (240 * y.val + x.val),
    lineBuf := Vector.ofFn fun x => Config.launchColour (38400 + x.val) }

/-- A PSG channel at ColdReset (R1051). -/
def Channel.reset : Channel := { on := false, len := 0, vol := 0, envt := 0, phaseT := 0 }

/-- The APU at ColdReset (R120, R1051). -/
def Apu.reset : Apu :=
  { cnt1L := 0#16, cnt1H := 0#16, cnt1X := 0#16, cnt2L := 0#16, cnt2H := 0#16, cnt3L := 0#16, cnt3H := 0#16,
    cnt3X := 0#16, cnt4L := 0#16, cnt4H := 0#16, cntL := 0#16, cntH := 0#16, master := false, bias := 0#16,
    ch := Vector.replicate 4 Channel.reset, dutyPos := Vector.replicate 2 0#3, shadow := 0#11, sweept := 0,
    sweepOn := false, wavePos := 0#5, waveBank := false, lfsr := 0#15, fifoA := [], fifoB := [], curA := 0#8,
    curB := 0#8, fsStep := 0#3, nextFs := 32768, nextSmp := 0 }

/-- A DMA channel at ColdReset (R120, R872). -/
def DmaChannel.reset : DmaChannel :=
  { sad := 0#32, dad := 0#32, cntL := 0#16, cntH := 0#16, isrc := 0#32, idst := 0#32, icount := 0 }

/-- A timer at ColdReset (R120, R921). -/
def Timer.reset : Timer := { reload := 0#16, start := 0, t0 := 0, count := 0, ctl := 0#8, next := none }

/-- The serial registers at ColdReset (R120). -/
def Sio.reset : Sio :=
  { multi0 := 0#16, multi1 := 0#16, multi2 := 0#16, multi3 := 0#16, siocnt := 0#16, send := 0#16, rcnt := 0#16,
    joycnt := 0#16, recvL := 0#16, recvH := 0#16, transL := 0#16, transH := 0#16, joystat := 0#16 }

/-- The savedata protocols at launch (R1155, R1162), for a backend. -/
def Save.idle (backend : Backend) (bits : EepromBits) : Save :=
  { backend := backend, flash := { stage := .idle, idMode := false, pending := .none, bank := false },
    eeprom := { bits := bits, inBits := [], out := none } }

/-- ColdReset (R1180, R120, R121) with images of the greatest lengths R15 allows and nothing listed, so that every
image byte is free, the SRAM backend and the default parameters (log entries 2, 3, 4 and 8). -/
def State.reset : State :=
  { cpu := Cpu.reset, cycles := 0, halted := false, stopped := false, fault := none, mem := [], biosLen := 16384,
    romLen := 33554432, params := Params.default, draws := 0, icache := [],
    irq := { ie := 0#14, ifl := 0#14, ime := false }, ppu := Ppu.reset, apu := Apu.reset,
    dma := { chan := Vector.replicate 4 DmaChannel.reset, held := [], running := none },
    timers := Vector.replicate 4 Timer.reset, keycnt := 0#16, sio := Sio.reset, waitcnt := 0#16, postflg := false,
    gpio := { data := 0#4, dir := 0#4, writes := [], readable := false }, output := { frames := [], audio := [] },
    save := Save.idle .sram .undecided }

end Sys2Proof.Machine

namespace Sys2Proof

/-- MIX where it is not the reference function (R1100, D40): free while the master enable is on (R1061). -/
opaque Config.mix : Machine.State → Int × Int

end Sys2Proof
end

