-- ==== Sys2Proof/Machine/Memory.lean ====
section
/-! DEFINITION. Memory as a sorted list of bytes by storage address, and the access widths (20_memory.md R160-R162).
Storage addresses: BIOS 0x00000000, EWRAM 0x02000000, IWRAM 0x03000000, wave RAM bank b 0x04000090 + 16 b, palette
0x05000000, VRAM 0x06000000, OAM 0x07000000, cartridge ROM 0x08000000 (32 MiB), save memory 0x0E000000 (log entry
28). -/

namespace Sys2Proof.Machine

/-- The three access widths (R162). -/
inductive Width where
  | byte
  | half
  | word
deriving DecidableEq, Repr

/-- The number of bytes of a width. -/
def Width.bytes : Width → Nat
  | .byte => 1
  | .half => 2
  | .word => 4

/-- The aligned address of an access (R162). -/
def Width.align : Width → Word → Word
  | .byte, a => a
  | .half, a => a &&& 0xFFFFFFFE#32
  | .word, a => a &&& 0xFFFFFFFC#32

/-- A value narrowed to a width and zero-extended (R24). -/
def Width.trim : Width → Word → Word
  | .byte, v => v &&& 0xFF#32
  | .half, v => v &&& 0xFFFF#32
  | .word, v => v

/-- The byte listed at a storage address. -/
def Memory.find : Memory → Nat → Option Byte
  | [], _ => none
  | (a, b) :: m, k => if a = k then some b else Memory.find m k

/-- What an unlisted address holds: nothing. The machine reads such a byte as the free value fixed at launch (D58, log
entry 1). -/
def Memory.unlisted (_ : Nat) : Option Byte := none

/-- The byte the machine reads at a storage address. -/
def Memory.byte (m : Memory) (k : Nat) : Byte := (m.find k).getD (Config.launchByte k)

/-- Write one byte, keeping the addresses strictly rising. -/
def Memory.set : Memory → Nat → Byte → Memory
  | [], k, v => [(k, v)]
  | (a, b) :: m, k, v =>
    if k < a then (k, v) :: (a, b) :: m
    else if k = a then (k, v) :: m
    else (a, b) :: Memory.set m k v

/-- The addresses of a cell list rise strictly from above a bound. -/
def Memory.risingFrom : Nat → Memory → Bool
  | _, [] => true
  | n, (a, _) :: m => n ≤ a && Memory.risingFrom (a + 1) m

/-- The canonical form: addresses strictly rising and no entry equal to what an unlisted address holds. -/
def Memory.wf (m : Memory) : Bool := Memory.risingFrom 0 m && m.all fun c => some c.2 != Memory.unlisted c.1

/-- The little-endian value of a width at a storage address, zero-extended (R160). -/
def Memory.read (m : Memory) (k : Nat) : Width → Word
  | .byte => (m.byte k).setWidth 32
  | .half => (m.byte (k + 1) ++ m.byte k).setWidth 32
  | .word => m.byte (k + 3) ++ m.byte (k + 2) ++ m.byte (k + 1) ++ m.byte k

/-- Byte k of a word, byte 0 the least significant. -/
def byteOf (v : Word) (k : Nat) : Byte := v.extractLsb' (8 * k) 8

/-- Write the low bytes of a value little-endian at a storage address (R160). -/
def Memory.write (m : Memory) (k : Nat) (v : Word) : Width → Memory
  | .byte => m.set k (byteOf v 0)
  | .half => (m.set k (byteOf v 0)).set (k + 1) (byteOf v 1)
  | .word => (((m.set k (byteOf v 0)).set (k + 1) (byteOf v 1)).set (k + 2) (byteOf v 2)).set (k + 3) (byteOf v 3)

/-- List bytes from a storage address on (launch images, chip erase). -/
def Memory.load (m : Memory) (k : Nat) : List Byte → Memory
  | [] => m
  | b :: bs => Memory.load (m.set k b) (k + 1) bs

/-- The offset in VRAM (R152). -/
def vramOffset (a : Word) : Nat :=
  if a.toNat % 0x20000 ≥ 0x18000 then a.toNat % 0x20000 - 0x8000 else a.toNat % 0x20000

/-- A draw (R20): a fresh free value. -/
def State.draw (s : State) : Word × State := (Config.draw s.draws, { s with draws := s.draws + 1 })

/-- Add k cycles to the shared counter (R80). -/
def State.bill (k : Nat) (s : State) : State := { s with cycles := s.cycles + k }

/-- `raise Fault(r)` (R25): the fault, with the state it leaves, in which the record is kept (R90). -/
def State.raise (r : FaultRecord) (s : State) : Fault :=
  match r with
  | .illegalInstruction pc word => .illegalInstruction pc word { s with fault := some r }
  | .unpredictable pc info => .unpredictable pc info { s with fault := some r }
  | .selfModifyHazard pc addr => .selfModifyHazard pc addr { s with fault := some r }
  | .unwrittenRegister pc reg => .unwrittenRegister pc reg { s with fault := some r }

/-- Replace the memory. -/
def State.setMem (m : Memory) (s : State) : State := { s with mem := m }

end Sys2Proof.Machine
end

