-- ==== Sys2Proof/Machine/Apu.lean ====
section
/-! DEFINITION. The audio synthesizer (64_apu.md): register reads and writes, the frame sequencer, the generators, the
FIFOs and the reference mixer. -/

namespace Sys2Proof.Machine

/-! ### Channels -/

/-- Replace channel k (0 to 3 for channels 1 to 4). -/
def Apu.setCh (k : Fin 4) (c : Channel) (a : Apu) : Apu := { a with ch := a.ch.set k.val c k.isLt }

/-- Set the channel-on flag. -/
def Apu.setOn (k : Fin 4) (b : Bool) (a : Apu) : Apu := a.setCh k { a.ch.get k with on := b }

/-- Set the length counter. -/
def Apu.setLen (k : Fin 4) (n : Nat) (a : Apu) : Apu := a.setCh k { a.ch.get k with len := n }

/-- The envelope register of channels 1, 2 and 4 (R1054, R1059); channel 3 has none. -/
def Apu.envReg (a : Apu) (k : Fin 4) : Half :=
  if k = 0 then a.cnt1H else if k = 1 then a.cnt2L else if k = 2 then 0#16 else a.cnt4L

/-- The register that holds the length enable bit of a channel (R1055, R1058, R1059). -/
def Apu.ctlReg (a : Apu) (k : Fin 4) : Half :=
  if k = 0 then a.cnt1X else if k = 1 then a.cnt2H else if k = 2 then a.cnt3X else a.cnt4H

/-- Whether a channel's DAC is on (R1054, R1056, R1059). -/
def Apu.dacOn (a : Apu) (k : Fin 4) : Bool :=
  if k = 2 then a.cnt3L.getLsbD 7 else (a.envReg k).extractLsb' 11 5 != 0#5

/-- The period of a channel's generator in cycles (R1072, R1077, R1078); none when it never steps (D87). -/
def Apu.period (a : Apu) (k : Fin 4) : Option Nat :=
  if k = 0 then some ((2048 - (a.cnt1X.extractLsb' 0 11).toNat) * 16)
  else if k = 1 then some ((2048 - (a.cnt2H.extractLsb' 0 11).toNat) * 16)
  else if k = 2 then some ((2048 - (a.cnt3X.extractLsb' 0 11).toNat) * 8)
  else
    let s := (a.cnt4H.extractLsb' 4 4).toNat
    let r := (a.cnt4H.extractLsb' 0 3).toNat
    if s ≥ 14 then none else if r = 0 then some (32 <<< s) else some ((64 * r) <<< s)

/-- One clock of the noise shift register (R1078); narrow is the 7-bit mode. -/
def lfsrStep (narrow : Bool) (l : BitVec 15) : BitVec 15 :=
  let x := l.getLsbD 0 != l.getLsbD 1
  let shifted := (l >>> 1) ||| (if x then 0x4000#15 else 0#15)
  if narrow then (shifted &&& ~~~0x40#15) ||| (if x then 0x40#15 else 0#15) else shifted

/-- n clocks of the noise shift register. -/
def lfsrSteps (narrow : Bool) : Nat → BitVec 15 → BitVec 15
  | 0, l => l
  | n + 1, l => lfsrSteps narrow n (lfsrStep narrow l)

/-- Move a channel's generator by n periods (R1072, R1077, R1078). -/
def Apu.stepGenerator (k : Fin 4) (n : Nat) (a : Apu) : Apu :=
  if k = 0 then { a with dutyPos := a.dutyPos.set 0 (a.dutyPos.get 0 + BitVec.ofNat 3 n) }
  else if k = 1 then { a with dutyPos := a.dutyPos.set 1 (a.dutyPos.get 1 + BitVec.ofNat 3 n) }
  else if k = 2 then
    let wraps := (a.wavePos.toNat + n) / 32
    { a with
      wavePos := BitVec.ofNat 5 (a.wavePos.toNat + n),
      waveBank := if a.cnt3L.getLsbD 5 && wraps % 2 == 1 then !a.waveBank else a.waveBank }
  else { a with lfsr := lfsrSteps (a.cnt4H.getLsbD 3) n a.lfsr }

/-- Bring a channel's generator position up to a time, keeping the remainder (R1075, log entry 19). -/
def Apu.advance (k : Fin 4) (now : Nat) (a : Apu) : Apu :=
  match a.period k with
  | none => a.setCh k { a.ch.get k with phaseT := now }
  | some p =>
    let n := (now - (a.ch.get k).phaseT) / p
    (a.stepGenerator k n).setCh k { a.ch.get k with phaseT := (a.ch.get k).phaseT + n * p }

/-- Bring every generator up to a time. -/
def Apu.advanceAll (now : Nat) (a : Apu) : Apu :=
  (((a.advance 0 now).advance 1 now).advance 2 now).advance 3 now

/-- The sweep's next frequency (R1074). -/
def Apu.sweepNext (a : Apu) (shadow : Nat) : Nat :=
  let n := (a.cnt1L.extractLsb' 0 3).toNat
  if a.cnt1L.getLsbD 3 then shadow - (shadow >>> n) else shadow + (shadow >>> n)

/-- The sweep's overflow check: it switches channel 1 off (R1074). -/
def Apu.sweepCheck (a : Apu) (shadow : Nat) : Apu := if a.sweepNext shadow > 2047 then a.setOn 0 false else a

/-- The reloaded sweep timer (R1071, R1074). -/
def Apu.sweepReload (a : Apu) : Nat :=
  if a.cnt1L.extractLsb' 4 3 = 0#3 then 8 else (a.cnt1L.extractLsb' 4 3).toNat

/-- The sweep part of a restart of channel 1 (R1071). -/
def Apu.restartSweep (a : Apu) : Apu :=
  let f := a.cnt1X.extractLsb' 0 11
  let a1 := { a with
    shadow := f, sweept := a.sweepReload,
    sweepOn := a.cnt1L.extractLsb' 4 3 != 0#3 || a.cnt1L.extractLsb' 0 3 != 0#3 }
  if a.cnt1L.extractLsb' 0 3 = 0#3 then a1 else a1.sweepCheck f.toNat

/-- Restart of channel k + 1 at a time (R1071). -/
def Apu.restart (k : Fin 4) (now : Nat) (a : Apu) : Apu :=
  let c := a.ch.get k
  let c1 := { c with
    on := a.dacOn k, len := if c.len = 0 then (if k = 2 then 256 else 64) else c.len, phaseT := now }
  let c2 := if k = 2 then c1 else
    { c1 with vol := ((a.envReg k).extractLsb' 12 4).toNat, envt := ((a.envReg k).extractLsb' 8 3).toNat }
  let a1 := a.setCh k c2
  if k = 0 then a1.restartSweep
  else if k = 1 then a1
  else if k = 2 then { a1 with wavePos := 0#5, waveBank := a.cnt3L.getLsbD 6 }
  else { a1 with lfsr := 0x7FFF#15 }

/-- Restart if the written value has bit 15 set (R1055, R1058, R1059). -/
def Apu.restartIf (v : Half) (k : Fin 4) (now : Nat) (a : Apu) : Apu :=
  if v.getLsbD 15 then a.restart k now else a

/-- Switch a channel off when its DAC is off. -/
def Apu.dacCheck (k : Fin 4) (a : Apu) : Apu := if a.dacOn k then a else a.setOn k false

/-! ### Register writes and reads -/

/-- The sound registers at offsets 0x060 to 0x081, which the master enable governs (R1061). -/
inductive SoundReg where
  | cnt1L | cnt1H | cnt1X | cnt2L | cnt2H | cnt3L | cnt3H | cnt3X | cnt4L | cnt4H | cntL
deriving DecidableEq, Repr

/-- The stored value of a sound register. -/
def Apu.stored (a : Apu) : SoundReg → Half
  | .cnt1L => a.cnt1L | .cnt1H => a.cnt1H | .cnt1X => a.cnt1X | .cnt2L => a.cnt2L | .cnt2H => a.cnt2H
  | .cnt3L => a.cnt3L | .cnt3H => a.cnt3H | .cnt3X => a.cnt3X | .cnt4L => a.cnt4L | .cnt4H => a.cnt4H
  | .cntL => a.cntL

/-- The bits of a sound register that read back; write-only fields read 0 (R1053-R1060). -/
def soundReadMask : SoundReg → Half
  | .cnt1L => 0x007F#16 | .cnt1H => 0xFFC0#16 | .cnt1X => 0x4000#16 | .cnt2L => 0xFFC0#16 | .cnt2H => 0x4000#16
  | .cnt3L => 0x00E0#16 | .cnt3H => 0xE000#16 | .cnt3X => 0x4000#16 | .cnt4L => 0xFF00#16 | .cnt4H => 0x40FF#16
  | .cntL => 0xFF77#16

/-- A read of a sound register; 0 while the master enable is off (R1061). -/
def Apu.readReg (a : Apu) (r : SoundReg) : Half := if a.master then a.stored r &&& soundReadMask r else 0#16

/-- A write of a sound register with the master enable on, at a time (R1053-R1060, R1071, R1075). A write of SOUND3CNT_L
bit 6 or of its dimension bit leaves the bank that plays until a restart or a wrap (R1071, R1077): R1056 and R1063 call
bit 6 the bank played, and which of the two holds between is the model's choice (log entry 31). -/
def Apu.writeOn (a : Apu) (r : SoundReg) (v : Half) (now : Nat) : Apu :=
  match r with
  | .cnt1L => { a with cnt1L := v &&& 0x007F#16 }
  | .cnt1H => ({ a with cnt1H := v }.setLen 0 (64 - (v.extractLsb' 0 6).toNat)).dacCheck 0
  | .cnt1X => ({ a.advance 0 now with cnt1X := v &&& 0x47FF#16 }).restartIf v 0 now
  | .cnt2L => ({ a with cnt2L := v }.setLen 1 (64 - (v.extractLsb' 0 6).toNat)).dacCheck 1
  | .cnt2H => ({ a.advance 1 now with cnt2H := v &&& 0x47FF#16 }).restartIf v 1 now
  | .cnt3L => { a.advance 2 now with cnt3L := v &&& 0x00E0#16 }.dacCheck 2
  | .cnt3H => { a with cnt3H := v &&& 0xE0FF#16 }.setLen 2 (256 - (v.extractLsb' 0 8).toNat)
  | .cnt3X => ({ a.advance 2 now with cnt3X := v &&& 0x47FF#16 }).restartIf v 2 now
  | .cnt4L => ({ a with cnt4L := v &&& 0xFF3F#16 }.setLen 3 (64 - (v.extractLsb' 0 6).toNat)).dacCheck 3
  | .cnt4H => ({ a.advance 3 now with cnt4H := v &&& 0x40FF#16 }).restartIf v 3 now
  | .cntL => { a with cntL := v &&& 0xFF77#16 }

/-- A write of a sound register; ignored while the master enable is off (R1061). -/
def Apu.writeReg (a : Apu) (r : SoundReg) (v : Half) (now : Nat) : Apu := if a.master then a.writeOn r v now else a

/-- A write of SOUNDCNT_H (R1060): bits 11 and 15 empty the FIFOs. -/
def Apu.writeCntH (a : Apu) (v : Half) : Apu :=
  { a with
    cntH := v &&& 0x770F#16, fifoA := if v.getLsbD 11 then [] else a.fifoA,
    fifoB := if v.getLsbD 15 then [] else a.fifoB }

/-- A channel with the on flag and length cleared. -/
def Channel.silence (c : Channel) : Channel := { c with on := false, len := 0 }

/-- A write of SOUNDCNT_X at a time (R1061): bit 7 = 0 clears the registers, the on flags and the lengths. -/
def Apu.writeCntX (a : Apu) (v : Half) (now : Nat) : Apu :=
  if v.getLsbD 7 then { a with master := true }
  else
    let b := a.advanceAll now
    { b with
      master := false, cnt1L := 0#16, cnt1H := 0#16, cnt1X := 0#16, cnt2L := 0#16, cnt2H := 0#16, cnt3L := 0#16,
      cnt3H := 0#16, cnt3X := 0#16, cnt4L := 0#16, cnt4H := 0#16, cntL := 0#16, ch := b.ch.map Channel.silence }

/-- A read of SOUNDCNT_X (R1061). -/
def Apu.readCntX (a : Apu) : Half :=
  (0#8 ++ BitVec.ofBool a.master ++ 0#3 ++ BitVec.ofBool (a.ch.get 3).on ++ BitVec.ofBool (a.ch.get 2).on
    ++ BitVec.ofBool (a.ch.get 1).on ++ BitVec.ofBool (a.ch.get 0).on)

/-- A write of SOUNDBIAS (R1062). -/
def Apu.writeBias (a : Apu) (v : Half) : Apu := { a with bias := v &&& 0xC3FF#16 }

/-- The two FIFOs. -/
inductive Fifo where
  | a
  | b
deriving DecidableEq, Repr

/-- Push bytes onto a queue of at most 32 (R1064, D41). -/
def fifoPush (q bs : List Byte) : List Byte := q ++ bs.take (32 - q.length)

/-- Push bytes onto a FIFO (R1064). -/
def Apu.push (x : Fifo) (bs : List Byte) (a : Apu) : Apu :=
  match x with
  | .a => { a with fifoA := fifoPush a.fifoA bs }
  | .b => { a with fifoB := fifoPush a.fifoB bs }

/-- The queue of a FIFO. -/
def Apu.fifo (a : Apu) : Fifo → List Byte
  | .a => a.fifoA
  | .b => a.fifoB

/-- Whether a FIFO's timer select bit names timer n (R1060, R1080). -/
def Apu.fifoTimer (a : Apu) (x : Fifo) (n : Fin 4) : Bool :=
  match x with
  | .a => (n == 0 && !a.cntH.getLsbD 10) || (n == 1 && a.cntH.getLsbD 10)
  | .b => (n == 0 && !a.cntH.getLsbD 14) || (n == 1 && a.cntH.getLsbD 14)

/-- Take a sample from a FIFO: the oldest byte, or 0 when it is empty (R1080, D96). -/
def Apu.takeSample (x : Fifo) (a : Apu) : Apu :=
  match x with
  | .a => { a with curA := a.fifoA.headD 0#8, fifoA := a.fifoA.tail }
  | .b => { a with curB := a.fifoB.headD 0#8, fifoB := a.fifoB.tail }

/-! ### Frame sequencer -/

/-- Clock a channel's length counter (R1073). -/
def Apu.clockLength (k : Fin 4) (a : Apu) : Apu :=
  let c := a.ch.get k
  if (a.ctlReg k).getLsbD 14 && c.len > 0 then
    a.setCh k { c with len := c.len - 1, on := c.on && c.len != 1 }
  else a

/-- Clock every length counter. -/
def Apu.clockLengths (a : Apu) : Apu := (((a.clockLength 0).clockLength 1).clockLength 2).clockLength 3

/-- The sweep step when its timer reaches 0, at a time (R1074). -/
def Apu.sweepStep (now : Nat) (a : Apu) : Apu :=
  if a.sweepOn && a.cnt1L.extractLsb' 4 3 != 0#3 then
    let new := a.sweepNext a.shadow.toNat
    if new > 2047 then a.setOn 0 false
    else if a.cnt1L.extractLsb' 0 3 = 0#3 then a
    else
      let b := a.advance 0 now
      { b with shadow := BitVec.ofNat 11 new, cnt1X := b.cnt1X.extractLsb' 11 5 ++ BitVec.ofNat 11 new }.sweepCheck new
  else a

/-- Clock the sweep (R1074). -/
def Apu.clockSweep (now : Nat) (a : Apu) : Apu :=
  if a.sweept = 0 then a
  else if a.sweept = 1 then { a with sweept := a.sweepReload }.sweepStep now
  else { a with sweept := a.sweept - 1 }

/-- Clock a channel's envelope (R1076). A timer clocked at 0, which the rule does not speak of (a restart with step time 0,
the step time written later), expires at once: the model's choice (log entry 31). -/
def Apu.clockEnvelope (k : Fin 4) (a : Apu) : Apu :=
  let c := a.ch.get k
  let step := ((a.envReg k).extractLsb' 8 3).toNat
  if step = 0 then a
  else if c.envt ≤ 1 then
    a.setCh k { c with
      envt := step,
      vol := if (a.envReg k).getLsbD 11 then (if c.vol < 15 then c.vol + 1 else c.vol) else c.vol - 1 }
  else a.setCh k { c with envt := c.envt - 1 }

/-- Clock the envelopes of channels 1, 2 and 4. -/
def Apu.clockEnvelopes (a : Apu) : Apu := ((a.clockEnvelope 0).clockEnvelope 1).clockEnvelope 3

/-- One step of the frame sequencer at its due time (R1070). -/
def Apu.frameStep (now : Nat) (a : Apu) : Apu :=
  let lengthsClocked := if a.fsStep.getLsbD 0 then a else a.clockLengths
  let swept := if a.fsStep = 2#3 ∨ a.fsStep = 6#3 then lengthsClocked.clockSweep now else lengthsClocked
  let enveloped := if a.fsStep = 7#3 then swept.clockEnvelopes else swept
  { enveloped with fsStep := a.fsStep + 1#3, nextFs := a.nextFs + 32768 }

/-! ### Output -/

/-- The duty patterns, bit k for step k (R1072). -/
def dutyPattern (d : BitVec 2) : BitVec 8 :=
  if d = 0#2 then 0x80#8 else if d = 1#2 then 0x81#8 else if d = 2#2 then 0xE1#8 else 0x7E#8

/-- The storage address of wave RAM byte i of a bank (R1051). -/
def waveKey (bank : Bool) (i : Nat) : Nat := 0x04000090 + (if bank then 16 else 0) + i

/-- The output of a square channel (R1072). -/
def Apu.squareOut (a : Apu) (k : Fin 4) (duty : BitVec 2) (pos : BitVec 3) : Nat :=
  if (dutyPattern duty).getLsbD pos.toNat then (a.ch.get k).vol else 0

/-- The 4-bit wave sample at the playing position (R1063). -/
def waveSample (m : Memory) (bank : Bool) (pos : BitVec 5) : Nat :=
  let b := m.byte (waveKey bank (pos.toNat / 2))
  if pos.getLsbD 0 then (b.extractLsb' 0 4).toNat else (b.extractLsb' 4 4).toNat

/-- The output of the wave channel (R1077). -/
def Apu.waveOut (a : Apu) (m : Memory) : Nat :=
  let v := waveSample m a.waveBank a.wavePos
  if a.cnt3H.getLsbD 15 then (3 * v) >>> 2
  else if a.cnt3H.extractLsb' 13 2 = 0#2 then 0
  else if a.cnt3H.extractLsb' 13 2 = 1#2 then v
  else if a.cnt3H.extractLsb' 13 2 = 2#2 then v >>> 1
  else v >>> 2

/-- out_c of a PSG channel (R1072, R1077, R1078). -/
def Apu.channelOut (a : Apu) (m : Memory) (k : Fin 4) : Nat :=
  if k = 0 then a.squareOut 0 (a.cnt1H.extractLsb' 6 2) (a.dutyPos.get 0)
  else if k = 1 then a.squareOut 1 (a.cnt2L.extractLsb' 6 2) (a.dutyPos.get 1)
  else if k = 2 then a.waveOut m
  else if a.lfsr.getLsbD 0 then 0 else (a.ch.get 3).vol

/-- The outputs of the channels that are on and routed to a side; base is 8 for right, 12 for left (R1060, R1100). -/
def Apu.psgSum (a : Apu) (m : Memory) (base : Nat) : Nat :=
  ([0, 1, 2, 3] : List (Fin 4)).foldl
    (fun acc k => if (a.ch.get k).on && a.cntL.getLsbD (base + k.val) then acc + a.channelOut m k else acc) 0

/-- A FIFO's contribution to a side (R1100). -/
def fifoOut (routed full : Bool) (cur : Byte) : Int := if routed then cur.toInt * (if full then 4 else 2) else 0

/-- MIX for one side (R1100). -/
def Apu.mix (a : Apu) (m : Memory) (left : Bool) : Int :=
  if a.master then
    let volume := if left then (a.cntL.extractLsb' 4 3).toNat else (a.cntL.extractLsb' 0 3).toNat
    let psg := (a.psgSum m (if left then 12 else 8) * (volume + 1)) >>> (2 - min (a.cntH.extractLsb' 0 2).toNat 2)
    let fifos := fifoOut (a.cntH.getLsbD (if left then 9 else 8)) (a.cntH.getLsbD 2) a.curA
      + fifoOut (a.cntH.getLsbD (if left then 13 else 12)) (a.cntH.getLsbD 3) a.curB
    max 0 (min 0x3FF ((psg : Int) + fifos + ((a.bias.extractLsb' 0 10).toNat : Int))) - 0x200
  else 0

/-- The frame sequencer event (R1070). -/
def State.apuFrameEvent (time : Nat) (s : State) : State := { s with apu := s.apu.frameStep time }

/-- MIX(state) (R1100), left and right: the reference function or another, as the parameter says (R19, D40). While
SOUNDCNT_X bit 7 is 0 the output is silent, whichever it is (R1061, D87): 0, as R1100 writes it. -/
def State.mixed (s : State) : Int × Int :=
  match s.params.mixing with
  | .reference => (s.apu.mix s.mem true, s.apu.mix s.mem false)
  | .other => if s.apu.master then Config.mix s else (0, 0)

/-- Append a stereo pair to the audio stream (R1100). -/
def State.putSample (p : Int × Int) (s : State) : State :=
  { s with output := { s.output with audio := p :: s.output.audio } }

/-- The output sampler event: bring the generators up to date and append one pair to the stream (R1075, R1100, log entry
20). -/
def State.apuSampleEvent (time : Nat) (s : State) : State :=
  let a := s.apu.advanceAll time
  let t := { s with apu := { a with nextSmp := a.nextSmp + max 1 s.params.samplePeriod } }
  t.putSample t.mixed

/-- A write of a wave RAM halfword (R1063): the bank that is not selected for playing. -/
def State.writeWave (i : Nat) (v : Half) (s : State) : State :=
  s.setMem (s.mem.write (waveKey (!s.apu.cnt3L.getLsbD 6) (2 * i)) (v.setWidth 32) .half)

/-- A read of a wave RAM halfword (R1063). -/
def State.readWave (s : State) (i : Nat) : Half :=
  (s.mem.read (waveKey (!s.apu.cnt3L.getLsbD 6) (2 * i)) .half).setWidth 16

end Sys2Proof.Machine
end

