-- ==== Sys2Proof/Machine/Dma.lean ====
section
/-! DEFINITION. The DMA channels' registers, arming and triggers (61_dma.md R870-R880). Transfers are in
Machine/Transfer.lean. -/

namespace Sys2Proof.Machine

/-- The stored bits of DMAnSAD (R871). -/
def sadMask (n : Fin 4) : Word := if n = 0 then 0x07FFFFFF#32 else 0x0FFFFFFF#32
/-- The stored bits of DMAnDAD. -/
def dadMask (n : Fin 4) : Word := if n = 3 then 0x0FFFFFFF#32 else 0x07FFFFFF#32
/-- The stored bits of DMAnCNT_L. -/
def countMask (n : Fin 4) : Half := if n = 3 then 0xFFFF#16 else 0x3FFF#16
/-- The stored bits of DMAnCNT_H (R873). -/
def dmaCtlMask (n : Fin 4) : Half := if n = 3 then 0xFFE0#16 else 0xF7E0#16

/-- Destination control, bits 6:5. -/
def DmaChannel.dstCtl (d : DmaChannel) : BitVec 2 := d.cntH.extractLsb' 5 2
/-- Source control, bits 8:7. -/
def DmaChannel.srcCtl (d : DmaChannel) : BitVec 2 := d.cntH.extractLsb' 7 2
/-- Repeat, bit 9. -/
def DmaChannel.repeats (d : DmaChannel) : Bool := d.cntH.getLsbD 9
/-- 32-bit elements, bit 10. -/
def DmaChannel.wide (d : DmaChannel) : Bool := d.cntH.getLsbD 10
/-- Start timing, bits 13:12. -/
def DmaChannel.timing (d : DmaChannel) : BitVec 2 := d.cntH.extractLsb' 12 2
/-- IRQ at end, bit 14. -/
def DmaChannel.irq (d : DmaChannel) : Bool := d.cntH.getLsbD 14
/-- Enable (armed), bit 15. -/
def DmaChannel.enabled (d : DmaChannel) : Bool := d.cntH.getLsbD 15

/-- Clear the enable bit. -/
def DmaChannel.disable (d : DmaChannel) : DmaChannel := { d with cntH := d.cntH &&& 0x7FFF#16 }

/-- An address aligned to the element width (R875). -/
def dmaAlign (wide : Bool) (a : Word) : Word := if wide then Width.word.align a else Width.half.align a

/-- CountOf(n) (R876). -/
def DmaChannel.countOf (d : DmaChannel) (n : Fin 4) (z : ZeroCount) : Nat :=
  if d.cntL ≠ 0#16 then d.cntL.toNat
  else match z with
  | .noOp => 0
  | .max => if n = 3 then 0x10000 else 0x4000

/-- Replace one half of a 32-bit register (R101). -/
def setWordHalf (old : Word) (high : Bool) (v : Half) : Word :=
  if high then v ++ old.extractLsb' 0 16 else old.extractLsb' 16 16 ++ v

/-- One half of a 32-bit register. -/
def wordHalf (w : Word) (high : Bool) : Half := if high then w.extractLsb' 16 16 else w.extractLsb' 0 16

/-- Channel n. -/
def State.dmaChan (s : State) (n : Fin 4) : DmaChannel := s.dma.chan.get n

/-- Replace channel n. -/
def State.setDmaChan (n : Fin 4) (d : DmaChannel) (s : State) : State :=
  { s with dma := { s.dma with chan := s.dma.chan.set n.val d n.isLt } }

/-- A write of one half of DMAnSAD (R871). -/
def State.writeSad (n : Fin 4) (high : Bool) (v : Half) (s : State) : State :=
  s.setDmaChan n { s.dmaChan n with sad := setWordHalf (s.dmaChan n).sad high v &&& sadMask n }

/-- A write of one half of DMAnDAD (R871). -/
def State.writeDad (n : Fin 4) (high : Bool) (v : Half) (s : State) : State :=
  s.setDmaChan n { s.dmaChan n with dad := setWordHalf (s.dmaChan n).dad high v &&& dadMask n }

/-- A write of DMAnCNT_L (R871). -/
def State.writeDmaCount (n : Fin 4) (v : Half) (s : State) : State :=
  s.setDmaChan n { s.dmaChan n with cntL := v &&& countMask n }

/-- Put a trigger among the held ones: channel 0 has the highest priority (R870, log entry 17). -/
def heldInsert (n : Fin 4) : List (Fin 4) → List (Fin 4)
  | [] => [n]
  | m :: ms => if n < m then n :: m :: ms else m :: heldInsert n ms

/-- Ask for a transfer of channel n: it is held until the running transfer and the access that asked have ended; a
trigger of the running channel is ignored (R880, D81, log entry 17). -/
def State.holdDma (n : Fin 4) (s : State) : State :=
  if s.dma.running = some n then s else { s with dma := { s.dma with held := heldInsert n s.dma.held } }

/-- Arm a channel with its internal registers loaded (R875). -/
def DmaChannel.arm (d : DmaChannel) (n : Fin 4) (z : ZeroCount) : DmaChannel :=
  { d with isrc := dmaAlign d.wide d.sad, idst := dmaAlign d.wide d.dad, icount := d.countOf n z }

/-- A write of DMAnCNT_H (R875): arming loads the internal registers and, for immediate timing, triggers. -/
def State.writeDmaControl (n : Fin 4) (v : Half) (s : State) : State :=
  let old := s.dmaChan n
  let new := { old with cntH := v &&& dmaCtlMask n }
  if !old.enabled && new.enabled then
    let armed := s.setDmaChan n (new.arm n s.params.zeroCount)
    if new.timing = 0#2 then armed.holdDma n else armed
  else s.setDmaChan n new

end Sys2Proof.Machine
end

