-- ==== Sys2Proof/Machine/Irq.lean ====
section
/-! DEFINITION. The interrupt controller (60_exceptions.md R810-R812), the halt wake (R840), the keypad check (R1122)
and the registers HALTCNT and POSTFLG (R841, R843). -/

namespace Sys2Proof.Machine

/-- irq_line (R811). -/
def State.irqLine (s : State) : Bool := s.irq.ime && (s.irq.ie &&& s.irq.ifl) != 0#14

/-- RaiseIRQ(k) (R811). -/
def State.raiseIrq (k : Nat) (s : State) : State :=
  { s with irq := { s.irq with ifl := s.irq.ifl ||| BitVec.twoPow 14 k } }

/-- RaiseIRQ(k) if a flag says so. -/
def State.raiseIrqIf (b : Bool) (k : Nat) (s : State) : State := if b then s.raiseIrq k else s

/-- DismissIRQs(mask) (R812). -/
def State.dismissIrqs (mask : BitVec 14) (s : State) : State :=
  { s with irq := { s.irq with ifl := s.irq.ifl &&& ~~~mask } }

/-- The wake check at the end of an event pass (R840, R852). -/
def State.wake (s : State) : State :=
  if s.halted && (s.irq.ie &&& s.irq.ifl) != 0#14 then { s with halted := false } else s

/-- KEYS at the current cycle (R1120). -/
def State.keysNow (s : State) : BitVec 10 := Config.keys s.cycles

/-- KEYINPUT (R1120): 0 for a pressed key. -/
def State.keyInput (s : State) : Half := (~~~s.keysNow).setWidth 16

/-- The keypad condition (R1122). -/
def State.keypadHit (s : State) : Bool :=
  if s.keycnt.getLsbD 14 then
    let p := s.keysNow &&& s.keycnt.setWidth 10
    if s.keycnt.getLsbD 15 then p == s.keycnt.setWidth 10 else p != 0#10
  else false

/-- KeypadCheck() (R1122). -/
def State.keypadCheck (s : State) : State := s.raiseIrqIf s.keypadHit 12

/-- A write of HALTCNT (R841). -/
def State.writeHaltcnt (v : Byte) (s : State) : State :=
  if v.getLsbD 7 then
    match s.params.stopPolicy with
    | .stuck => { s with stopped := true }
    | .ignore => s
  else { s with halted := true }

/-- A write of POSTFLG (R843). -/
def State.writePostflg (v : Byte) (s : State) : State := { s with postflg := v.getLsbD 0 }

end Sys2Proof.Machine
end

