-- ==== Sys2Proof/Machine/Ppu.lean ====
section
/-! DEFINITION. The video renderer (63_ppu.md): registers, one composed line, and the line-phase state. The events that
raise interrupts and trigger DMA are in Machine/Events.lean. -/

namespace Sys2Proof.Machine

/-! ### Registers -/

/-- A write of DISPCNT: bit 3 is read-only 0 (R960). -/
def Ppu.writeDispcnt (p : Ppu) (v : Half) : Ppu := { p with dispcnt := v &&& 0xFFF7#16 }

/-- A write of DISPSTAT: bits 3 to 5 and 15:8 (R961). -/
def Ppu.writeDispstat (p : Ppu) (v : Half) : Ppu := { p with dispstat := v &&& 0xFF38#16 }

/-- LYC (R961). -/
def Ppu.lyc (p : Ppu) : Nat := (p.dispstat.extractLsb' 8 8).toNat

/-- The V-blank flag: lines 160 to 226 (R961). -/
def Ppu.vblankFlag (p : Ppu) : Bool := 160 ≤ p.vcount && p.vcount < 227

/-- A read of DISPSTAT (R961). -/
def Ppu.readDispstat (p : Ppu) : Half :=
  p.dispstat ||| (BitVec.ofBool (p.vcount == p.lyc) ++ BitVec.ofBool (p.phase == .hblank)
    ++ BitVec.ofBool p.vblankFlag).setWidth 16

/-- The BG mode (R960). -/
def Ppu.bgMode (p : Ppu) : Nat := (p.dispcnt.extractLsb' 0 3).toNat

/-- A write of BGkCNT: bits 5:4 are unused (R963). -/
def Ppu.writeBgcnt (p : Ppu) (k : Fin 4) (v : Half) : Ppu := { p with bgcnt := p.bgcnt.set k.val (v &&& 0xFFCF#16) k.isLt }

/-- A write of BGkHOFS (R964). -/
def Ppu.writeHofs (p : Ppu) (k : Fin 4) (v : Half) : Ppu := { p with hofs := p.hofs.set k.val (v.setWidth 9) k.isLt }

/-- A write of BGkVOFS (R964). -/
def Ppu.writeVofs (p : Ppu) (k : Fin 4) (v : Half) : Ppu := { p with vofs := p.vofs.set k.val (v.setWidth 9) k.isLt }

/-- Replace the affine registers of BG2 (0) or BG3 (1). -/
def Ppu.setAffine (p : Ppu) (k : Fin 2) (a : Affine) : Ppu := { p with affine := p.affine.set k.val a k.isLt }

/-- Replace one half of a 28-bit reference register (R966, R101). -/
def setRefHalf (old : BitVec 28) (high : Bool) (v : Half) : BitVec 28 :=
  if high then v.setWidth 12 ++ old.extractLsb' 0 16 else old.extractLsb' 16 12 ++ v

/-- A write of one half of BGkX, which is copied to X_int at once (R966). -/
def Affine.writeX (a : Affine) (high : Bool) (v : Half) : Affine :=
  { a with x := setRefHalf a.x high v, xInt := setRefHalf a.x high v }

/-- A write of one half of BGkY, which is copied to Y_int at once (R966). -/
def Affine.writeY (a : Affine) (high : Bool) (v : Half) : Affine :=
  { a with y := setRefHalf a.y high v, yInt := setRefHalf a.y high v }

/-! ### Video memory -/

/-- The first VRAM offset past the background area (R189, R977); modes 6 and 7 are taken as modes 3 to 5 (log entry
21). -/
def Ppu.bgArea (p : Ppu) : Nat := if p.bgMode ≤ 2 then 0x10000 else 0x14000

/-- A VRAM byte a background reads; 0 past the background area (R977). -/
def Ppu.bgByte (p : Ppu) (m : Memory) (o : Nat) : Nat := if o < p.bgArea then (m.byte (0x06000000 + o)).toNat else 0

/-- A VRAM halfword a background reads; 0 past the background area (R977). -/
def Ppu.bgHalf (p : Ppu) (m : Memory) (o : Nat) : Half :=
  if o < p.bgArea then (m.read (0x06000000 + o) .half).setWidth 16 else 0#16

/-- Palette entry i, 0 to 255 for backgrounds and 256 to 511 for sprites (R975); bit 15 is ignored. -/
def paletteColour (m : Memory) (i : Nat) : Half := (m.read (0x05000000 + 2 * i) .half).setWidth 16 &&& 0x7FFF#16

/-- A halfword of OAM (R976). -/
def oamHalf (m : Memory) (o : Nat) : Half := (m.read (0x07000000 + o) .half).setWidth 16

/-- The pixel of a 4-bit tile row byte: low nibble for even x (R981). -/
def nibble (b : Nat) (px : Nat) : Nat := if px % 2 = 0 then b % 16 else b / 16

/-! ### Backgrounds -/

/-- Round a coordinate down to a multiple of a mosaic size (R988). -/
def mosaicDown (on : Bool) (size x : Nat) : Nat := if on then x - x % size else x

/-- mh (R988). -/
def Ppu.mosaicH (p : Ppu) : Nat := (p.mosaic.extractLsb' 0 4).toNat + 1
/-- mv. -/
def Ppu.mosaicV (p : Ppu) : Nat := (p.mosaic.extractLsb' 4 4).toNat + 1
/-- oh. -/
def Ppu.mosaicObjH (p : Ppu) : Nat := (p.mosaic.extractLsb' 8 4).toNat + 1
/-- ov. -/
def Ppu.mosaicObjV (p : Ppu) : Nat := (p.mosaic.extractLsb' 12 4).toNat + 1

/-- A text background pixel; none when transparent (R981), as where its map entry lies past the background area (R977,
D85). -/
def Ppu.textPixel (p : Ppu) (m : Memory) (k : Fin 4) (x y : Nat) : Option Half :=
  let cnt := p.bgcnt.get k
  let mos := cnt.getLsbD 6
  let width := if cnt.getLsbD 14 then 512 else 256
  let height := if cnt.getLsbD 15 then 512 else 256
  let sx := (mosaicDown mos p.mosaicH x + (p.hofs.get k).toNat) % width
  let sy := (mosaicDown mos p.mosaicV y + (p.vofs.get k).toNat) % height
  let tx := sx / 8
  let ty := sy / 8
  let blk := tx / 32 + (ty / 32) * (width / 256)
  let entry := (cnt.extractLsb' 8 5).toNat * 0x800 + blk * 0x800 + ((ty % 32) * 32 + tx % 32) * 2
  let e := p.bgHalf m entry
  let tile := (e.extractLsb' 0 10).toNat
  let px := if e.getLsbD 10 then 7 - sx % 8 else sx % 8
  let py := if e.getLsbD 11 then 7 - sy % 8 else sy % 8
  let base := (cnt.extractLsb' 2 2).toNat * 0x4000
  if p.bgArea ≤ entry then none
  else if cnt.getLsbD 7 then
    let index := p.bgByte m (base + tile * 64 + py * 8 + px)
    if index = 0 then none else some (paletteColour m index)
  else
    let index := nibble (p.bgByte m (base + tile * 32 + py * 4 + px / 2)) px
    if index = 0 then none else some (paletteColour m (16 * (e.extractLsb' 12 4).toNat + index))

/-- The texture coordinates of an affine or bitmap background at screen pixel x (R982, R988). -/
def Ppu.texture (p : Ppu) (k : Fin 2) (mos : Bool) (x : Nat) : Int × Int :=
  let a := p.affine.get k
  let x' : Int := mosaicDown mos p.mosaicH x
  let xr := if mos then a.xm else a.xInt
  let yr := if mos then a.ym else a.yInt
  ((xr.toInt + a.pa.toInt * x') / 256, (yr.toInt + a.pc.toInt * x') / 256)

/-- An affine background pixel; none when transparent (R982), as where its map entry lies past the background area (R977,
D85). -/
def Ppu.affinePixel (p : Ppu) (m : Memory) (k : Fin 2) (x : Nat) : Option Half :=
  let cnt := p.bgcnt.get ⟨k.val + 2, by omega⟩
  let size : Nat := 128 <<< (cnt.extractLsb' 14 2).toNat
  let (tx, ty) := p.texture k (cnt.getLsbD 6) x
  let inside := decide (0 ≤ tx ∧ tx < size ∧ 0 ≤ ty ∧ ty < size)
  if !inside && !cnt.getLsbD 13 then none
  else
    let ux := (tx % size).toNat
    let uy := (ty % size).toNat
    let entry := (cnt.extractLsb' 8 5).toNat * 0x800 + (uy / 8) * (size / 8) + ux / 8
    let tile := p.bgByte m entry
    let index := p.bgByte m ((cnt.extractLsb' 2 2).toNat * 0x4000 + tile * 64 + (uy % 8) * 8 + ux % 8)
    if p.bgArea ≤ entry ∨ index = 0 then none else some (paletteColour m index)

/-- A bitmap background pixel of BG2; none when transparent (R983). -/
def Ppu.bitmapPixel (p : Ppu) (m : Memory) (x : Nat) : Option Half :=
  let (tx, ty) := p.texture 0 ((p.bgcnt.get 2).getLsbD 6) x
  let width : Nat := if p.bgMode = 5 then 160 else 240
  let height : Nat := if p.bgMode = 5 then 128 else 160
  let frame := if p.dispcnt.getLsbD 4 then 0xA000 else 0
  if 0 ≤ tx ∧ tx < width ∧ 0 ≤ ty ∧ ty < height then
    let at' := ty.toNat * width + tx.toNat
    if p.bgMode = 3 then some (p.bgHalf m (at' * 2) &&& 0x7FFF#16)
    else if p.bgMode = 4 then
      let index := p.bgByte m (frame + at')
      if index = 0 then none else some (paletteColour m index)
    else some (p.bgHalf m (frame + at' * 2) &&& 0x7FFF#16)
  else none

/-- The pixel of background k in the current mode, if the mode has the layer and DISPCNT enables it (R980). -/
def Ppu.bgPixel (p : Ppu) (m : Memory) (k : Fin 4) (x y : Nat) : Option Half :=
  if p.dispcnt.getLsbD (8 + k.val) then
    if p.bgMode = 0 then p.textPixel m k x y
    else if p.bgMode = 1 then
      if k = 0 ∨ k = 1 then p.textPixel m k x y else if k = 2 then p.affinePixel m 0 x else none
    else if p.bgMode = 2 then
      if k = 2 then p.affinePixel m 0 x else if k = 3 then p.affinePixel m 1 x else none
    else if p.bgMode ≤ 5 then if k = 2 then p.bitmapPixel m x else none
    else none
  else none

/-! ### Sprites -/

/-- A sprite of OAM (R976). -/
structure Sprite where
  /-- Its entry number. -/
  index : Nat
  /-- Attribute 0. -/
  attr0 : Half
  /-- Attribute 1. -/
  attr1 : Half
  /-- Attribute 2. -/
  attr2 : Half
deriving DecidableEq, Repr

/-- Entry i of OAM. -/
def spriteAt (m : Memory) (i : Nat) : Sprite :=
  { index := i, attr0 := oamHalf m (8 * i), attr1 := oamHalf m (8 * i + 2), attr2 := oamHalf m (8 * i + 4) }

/-- Affine. -/
def Sprite.affine (o : Sprite) : Bool := o.attr0.getLsbD 8
/-- Mode: 0 normal, 1 semi-transparent, 2 window mask, 3 prohibited. -/
def Sprite.mode (o : Sprite) : Nat := (o.attr0.extractLsb' 10 2).toNat
/-- Shape: 0 square, 1 wide, 2 tall, 3 prohibited. -/
def Sprite.shape (o : Sprite) : Nat := (o.attr0.extractLsb' 14 2).toNat
/-- X, signed. -/
def Sprite.x (o : Sprite) : Int := (o.attr1.extractLsb' 0 9).toInt
/-- Priority. -/
def Sprite.prio (o : Sprite) : Nat := (o.attr2.extractLsb' 10 2).toNat

/-- Width and height by shape and size (R976). -/
def Sprite.dims (o : Sprite) : Nat × Nat :=
  let k := (o.attr1.extractLsb' 14 2).toNat
  if o.shape = 0 then (8 <<< k, 8 <<< k)
  else
    let long := if k = 0 then 16 else if k = 3 then 64 else 32
    let short := if k = 3 then 32 else if k = 2 then 16 else 8
    if o.shape = 1 then (long, short) else (short, long)

/-- The bounding box (R985). -/
def Sprite.box (o : Sprite) : Nat × Nat :=
  if o.affine && o.attr0.getLsbD 9 then (2 * o.dims.1, 2 * o.dims.2) else o.dims

/-- The local line of a screen line (R985). -/
def Sprite.localY (o : Sprite) (y : Nat) : Nat := (y + 256 - (o.attr0.extractLsb' 0 8).toNat) % 256

/-- Whether a sprite is on a line (R985, D83). -/
def Sprite.onLine (o : Sprite) (y : Nat) : Bool :=
  (o.affine || !o.attr0.getLsbD 9) && o.shape != 3 && o.mode != 3 && decide (o.localY y < o.box.2)

/-- An affine parameter of a sprite's group: j is 0 for PA to 3 for PD (R976). -/
def Sprite.param (o : Sprite) (m : Memory) (j : Nat) : Int :=
  (oamHalf m (8 * (4 * (o.attr1.extractLsb' 9 5).toNat + j) + 6)).toInt

/-- The texture coordinates of a local pixel; none outside the sprite (R985). -/
def Sprite.texture (o : Sprite) (m : Memory) (lx ly : Nat) : Option (Nat × Nat) :=
  let (w, h) := o.dims
  if o.affine then
    let (bw, bh) := o.box
    let dx : Int := (lx : Int) - (bw / 2 : Nat)
    let dy : Int := (ly : Int) - (bh / 2 : Nat)
    let tx := (o.param m 0 * dx + o.param m 1 * dy) / 256 + (w / 2 : Nat)
    let ty := (o.param m 2 * dx + o.param m 3 * dy) / 256 + (h / 2 : Nat)
    if 0 ≤ tx ∧ tx < w ∧ 0 ≤ ty ∧ ty < h then some (tx.toNat, ty.toNat) else none
  else
    some (if o.attr1.getLsbD 12 then w - 1 - lx else lx, if o.attr1.getLsbD 13 then h - 1 - ly else ly)

/-- The colour of a sprite's texture pixel; none when transparent (R985, R977). In BG modes 6 and 7, which R977 does not
name, every object tile is displayed, as in modes 0 to 2; this is the model's choice (log entry 21). -/
def Sprite.texel (o : Sprite) (p : Ppu) (m : Memory) (tx ty : Nat) : Option Half :=
  let wide := if p.dispcnt.getLsbD 6 then o.dims.1 / 8 else 32
  let full := o.attr0.getLsbD 13
  let tile := (o.attr2.extractLsb' 0 10).toNat
  let number :=
    (if full then (if p.dispcnt.getLsbD 6 then tile + ((ty / 8) * wide + tx / 8) * 2
        else tile + (ty / 8) * wide + (tx / 8) * 2)
      else tile + (ty / 8) * wide + tx / 8) % 1024
  if 3 ≤ p.bgMode ∧ p.bgMode ≤ 5 ∧ number < 512 then none
  else
    let data := 0x06010000 + 32 * number
    if full then
      let index := (m.byte (data + (ty % 8) * 8 + tx % 8)).toNat
      if index = 0 then none else some (paletteColour m (256 + index))
    else
      let index := nibble (m.byte (data + (ty % 8) * 4 + (tx % 8) / 2)).toNat (tx % 8)
      if index = 0 then none else some (paletteColour m (256 + 16 * (o.attr2.extractLsb' 12 4).toNat + index))

/-- The opaque colour of a sprite at a screen pixel of a line it is on (R985, R988). -/
def Sprite.pixel (o : Sprite) (p : Ppu) (m : Memory) (x y : Nat) : Option Half :=
  let lx := (x : Int) - o.x
  if 0 ≤ lx ∧ lx < o.box.1 then
    let mos := o.attr0.getLsbD 12
    match o.texture m (mosaicDown mos p.mosaicObjH lx.toNat) (mosaicDown mos p.mosaicObjV (o.localY y)) with
    | none => none
    | some (tx, ty) => o.texel p m tx ty
  else none

/-- The sprites on a line, in entry order (R985). -/
def Ppu.lineSprites (p : Ppu) (m : Memory) (y : Nat) : List Sprite :=
  if p.dispcnt.getLsbD 12 then ((List.range 128).map (spriteAt m)).filter (·.onLine y) else []

/-- The OBJ layer at a pixel: the winning sprite's priority, semi-transparency and colour. -/
structure ObjPixel where
  /-- Priority. -/
  prio : Nat
  /-- Semi-transparent. -/
  semi : Bool
  /-- Colour. -/
  colour : Half
deriving DecidableEq, Repr

/-- The sprite of least priority number, then least entry number, that is opaque at x (R985). -/
def Ppu.objPixel (p : Ppu) (m : Memory) (sprites : List Sprite) (x y : Nat) : Option ObjPixel :=
  sprites.foldl
    (fun best o =>
      if o.mode = 2 then best
      else match o.pixel p m x y with
      | none => best
      | some c =>
        match best with
        | none => some { prio := o.prio, semi := o.mode == 1, colour := c }
        | some b => if o.prio < b.prio then some { prio := o.prio, semi := o.mode == 1, colour := c } else some b)
    none

/-- Whether x is in the OBJ window mask of a line (R985, R986). -/
def Ppu.objWindow (p : Ppu) (m : Memory) (sprites : List Sprite) (x y : Nat) : Bool :=
  sprites.any fun o => o.mode == 2 && (o.pixel p m x y).isSome

/-! ### Windows, order and effect -/

/-- Whether a coordinate is inside a window's edges, the second taken as at most `limit` (R986, D39). -/
def inEdges (v : Half) (limit at' : Nat) : Bool :=
  let e1 := (v.extractLsb' 8 8).toNat
  let e2 := (v.extractLsb' 0 8).toNat
  if e1 ≤ e2 then e1 ≤ at' && at' < min e2 limit else e1 ≤ at' || at' < e2

/-- The enable set at a pixel: bits 0 to 3 BG0 to BG3, 4 OBJ, 5 colour effect (R986). -/
def Ppu.windowSet (p : Ppu) (m : Memory) (sprites : List Sprite) (x y : Nat) : BitVec 6 :=
  if p.dispcnt.extractLsb' 13 3 = 0#3 then 0x3F#6
  else if p.dispcnt.getLsbD 13 && inEdges p.win0h 240 x && inEdges p.win0v 160 y then p.winin.extractLsb' 0 6
  else if p.dispcnt.getLsbD 14 && inEdges p.win1h 240 x && inEdges p.win1v 160 y then p.winin.extractLsb' 8 6
  else if p.dispcnt.getLsbD 15 && p.dispcnt.getLsbD 12 && p.objWindow m sprites x y then p.winout.extractLsb' 8 6
  else p.winout.extractLsb' 0 6

/-- A layer's pixel: its number (0 to 3 BG, 4 OBJ, 5 backdrop), semi-transparency and colour. -/
structure LayerPixel where
  /-- Layer number, the bit of BLDCNT's target sets (R970). -/
  layer : Nat
  /-- A semi-transparent sprite pixel. -/
  semi : Bool
  /-- Colour. -/
  colour : Half
deriving DecidableEq, Repr

/-- The candidates at one priority: the OBJ layer before the backgrounds, those in order (R987). -/
def candidatesAt (p : Ppu) (obj : Option ObjPixel) (bgs : List (Fin 4 × Half)) (prio : Nat) : List LayerPixel :=
  (match obj with
    | some o => if o.prio = prio then [{ layer := 4, semi := o.semi, colour := o.colour }] else []
    | none => []) ++
  (bgs.filter fun b => ((p.bgcnt.get b.1).extractLsb' 0 2).toNat == prio).map
    fun b => { layer := b.1.val, semi := false, colour := b.2 }

/-- Every candidate at a pixel, top first, the backdrop last (R987). -/
def Ppu.candidates (p : Ppu) (m : Memory) (sprites : List Sprite) (x y : Nat) : List LayerPixel :=
  let set := p.windowSet m sprites x y
  let obj := if set.getLsbD 4 then p.objPixel m sprites x y else none
  let bgs := ([0, 1, 2, 3] : List (Fin 4)).filterMap fun k =>
    if set.getLsbD k.val then (p.bgPixel m k x y).map fun c => (k, c) else none
  candidatesAt p obj bgs 0 ++ candidatesAt p obj bgs 1 ++ candidatesAt p obj bgs 2 ++ candidatesAt p obj bgs 3
    ++ [{ layer := 5, semi := false, colour := paletteColour m 0 }]

/-- Apply a function to the three 5-bit channels of a colour. -/
def mapColour (f : Nat → Nat) (c : Half) : Half :=
  0#1 ++ BitVec.ofNat 5 (f (c.extractLsb' 10 5).toNat) ++ BitVec.ofNat 5 (f (c.extractLsb' 5 5).toNat)
    ++ BitVec.ofNat 5 (f (c.extractLsb' 0 5).toNat)

/-- Alpha blend of two colours (R989). -/
def alphaBlend (eva evb : Nat) (a b : Half) : Half :=
  let mixChannel (k : Nat) : BitVec 5 :=
    BitVec.ofNat 5 (min 31 (((a.extractLsb' k 5).toNat * eva + (b.extractLsb' k 5).toNat * evb) >>> 4))
  0#1 ++ mixChannel 10 ++ mixChannel 5 ++ mixChannel 0

/-- The weights, at most 16 (R989). -/
def weight (v : BitVec 5) : Nat := min v.toNat 16

/-- The colour of the two topmost layers, before forced blank (R989). -/
def Ppu.effect (p : Ppu) (effectOn : Bool) (top : LayerPixel) (second : Option LayerPixel) : Half :=
  let inSecond := match second with
    | some b => p.bldcnt.getLsbD (8 + b.layer)
    | none => false
  let under := match second with
    | some b => b.colour
    | none => 0#16
  let eva := weight (p.bldalpha.extractLsb' 0 5)
  let evb := weight (p.bldalpha.extractLsb' 8 5)
  let evy := weight p.bldy
  if top.semi && inSecond then alphaBlend eva evb top.colour under
  else if !effectOn || !p.bldcnt.getLsbD top.layer then top.colour
  else if p.bldcnt.extractLsb' 6 2 = 0#2 then top.colour
  else if p.bldcnt.extractLsb' 6 2 = 1#2 then
    if inSecond then alphaBlend eva evb top.colour under else top.colour
  else if p.bldcnt.extractLsb' 6 2 = 2#2 then mapColour (fun c => c + (((31 - c) * evy) >>> 4)) top.colour
  else mapColour (fun c => c - ((c * evy) >>> 4)) top.colour

/-- The colour of a screen pixel (R980-R989). -/
def Ppu.pixel (p : Ppu) (m : Memory) (sprites : List Sprite) (x y : Nat) : Half :=
  if p.dispcnt.getLsbD 7 then 0x7FFF#16
  else match p.candidates m sprites x y with
  | [] => 0#16
  | top :: rest => p.effect ((p.windowSet m sprites x y).getLsbD 5) top rest.head?

/-- The 240 colours of visible line y (R980). -/
def Ppu.composeLine (p : Ppu) (m : Memory) (y : Nat) : Vector Half 240 :=
  let sprites := p.lineSprites m y
  Vector.ofFn fun x => p.pixel m sprites x.val y

/-! ### Line state -/

/-- Latch the mosaic reference points on a line that is a multiple of the vertical size (R988). -/
def Affine.latch (a : Affine) : Affine := { a with xm := a.xInt, ym := a.yInt }

/-- Step the reference points after a visible line (R990). -/
def Affine.step (a : Affine) : Affine :=
  { a with xInt := a.xInt + a.pb.signExtend 28, yInt := a.yInt + a.pd.signExtend 28 }

/-- Reload the reference points at line 160 (R990). -/
def Affine.reload (a : Affine) : Affine := { a with xInt := a.x, yInt := a.y }

/-- Put a composed line into the frame and line buffers (R980). -/
def Ppu.putLine (p : Ppu) (y : Nat) (line : Vector Half 240) : Ppu :=
  { p with lineBuf := line, frame := if h : y < 160 then p.frame.set y line h else p.frame }

/-- Compose the current visible line and step the reference points (R980, R988, R990). -/
def Ppu.drawLine (p : Ppu) (m : Memory) : Ppu :=
  let latched := if p.vcount % p.mosaicV = 0 then { p with affine := p.affine.map Affine.latch } else p
  let drawn := latched.putLine p.vcount (latched.composeLine m p.vcount)
  { drawn with affine := drawn.affine.map Affine.step }

/-- H-draw to H-blank at a time (R995, R1001), without interrupts and DMA. -/
def Ppu.enterHblank (p : Ppu) (m : Memory) (time : Nat) : Ppu :=
  let q := { p with phase := .hblank, nextPpu := time + 226 }
  if p.vcount < 160 then q.drawLine m else q

/-- H-blank to the next line at a time (R995, R1000), without interrupts and DMA. -/
def Ppu.enterLine (p : Ppu) (time : Nat) : Ppu :=
  let q := { p with phase := .hdraw, nextPpu := time + 1006, vcount := (p.vcount + 1) % 228 }
  if q.vcount = 160 then { q with affine := q.affine.map Affine.reload } else q

end Sys2Proof.Machine
end

