-- ==== Sys2Proof/Machine/Timer.lean ====
section
/-! DEFINITION. The timers' registers and counting (62_timers.md R920-R932). Overflow events are in
Machine/Events.lean. -/

namespace Sys2Proof.Machine

/-- Bit 7 of the control: running (R923). -/
def Timer.running (t : Timer) : Bool := t.ctl.getLsbD 7

/-- Bit 6: IRQ at overflow. -/
def Timer.irq (t : Timer) : Bool := t.ctl.getLsbD 6

/-- The prescaler shift (R923). -/
def Timer.shift (t : Timer) : Nat :=
  if t.ctl.extractLsb' 0 2 = 0#2 then 0
  else if t.ctl.extractLsb' 0 2 = 1#2 then 6
  else if t.ctl.extractLsb' 0 2 = 2#2 then 8
  else 10

/-- Cascading(n): the count-up bit, ignored for timer 0 (R923, R924). -/
def Timer.cascading (t : Timer) (n : Fin 4) : Bool := n != 0 && t.ctl.getLsbD 2

/-- Count(n, t) (R926). -/
def Timer.countAt (t : Timer) (n : Fin 4) (now : Nat) : Nat :=
  if !t.running || t.cascading n then t.count
  else
    let k := t.start + ((now - t.t0) >>> t.shift)
    if k ≤ 0xFFFF then k
    else t.reload.toNat + ((k - 0x10000) % (0x10000 - t.reload.toNat))

/-- The time of the next overflow from the base (R924), none for a stopped or cascading timer. -/
def Timer.schedule (t : Timer) (n : Fin 4) : Option Nat :=
  if t.running && !t.cascading n then some (t.t0 + ((0x10000 - t.start) <<< t.shift)) else none

/-- A write of TMnCNT_L (R922): the reload value only. -/
def Timer.writeReload (t : Timer) (v : Half) : Timer := { t with reload := v }

/-- The stored bits of TMnCNT_H (R923). -/
def timerCtlMask : Byte := 0xC7#8

/-- A write of TMnCNT_H at a time (R924). -/
def Timer.writeControl (t : Timer) (n : Fin 4) (v : Half) (now : Nat) : Timer :=
  let frozen := if t.running then t.countAt n now else t.count
  let latched := { t with count := frozen, ctl := v.setWidth 8 &&& timerCtlMask }
  let based :=
    if latched.running then
      if t.running then { latched with start := frozen, t0 := now }
      else { latched with count := t.reload.toNat, start := t.reload.toNat, t0 := now }
    else latched
  { based with next := based.schedule n }

/-- The timer's own part of an overflow at a time (R930): reload and reschedule. -/
def Timer.reloadAt (t : Timer) (n : Fin 4) (time : Nat) : Timer :=
  let u := { t with count := t.reload.toNat, start := t.reload.toNat, t0 := time }
  if t.cascading n then u else { u with next := some (time + ((0x10000 - t.reload.toNat) <<< t.shift)) }

/-- Timer n. -/
def State.timer (s : State) (n : Fin 4) : Timer := s.timers.get n

/-- Replace timer n. -/
def State.setTimer (n : Fin 4) (t : Timer) (s : State) : State := { s with timers := s.timers.set n.val t n.isLt }

/-- A read of TMnCNT_L (R922). -/
def State.readTimerCount (s : State) (n : Fin 4) : Half := BitVec.ofNat 16 ((s.timer n).countAt n s.cycles)

/-- A write of TMnCNT_L. -/
def State.writeTimerReload (n : Fin 4) (v : Half) (s : State) : State := s.setTimer n ((s.timer n).writeReload v)

/-- A write of TMnCNT_H. -/
def State.writeTimerControl (n : Fin 4) (v : Half) (s : State) : State :=
  s.setTimer n ((s.timer n).writeControl n v s.cycles)

end Sys2Proof.Machine
end

