-- ==== Sys2Proof/Machine/Io.lean ====
section
/-! DEFINITION. The register block (10_state.md R100-R103): where each halfword register is, what a 16-bit read and
write of it do, and 8- and 32-bit accesses over them. -/

namespace Sys2Proof.Machine

/-- The storage halfwords of the serial stub (R1130). -/
inductive SioReg where
  | multi0 | multi1 | multi2 | multi3 | siocnt | send | rcnt | joycnt | recvL | recvH | transL | transH | joystat
deriving DecidableEq, Repr

/-- The affine parameters (R965). -/
inductive AffineParam where
  | pa | pb | pc | pd
deriving DecidableEq, Repr

/-- A halfword of the register block (R100). For a 32-bit register, `high` names the upper half. -/
inductive IoReg where
  | dispcnt
  | dispstat
  | vcount
  | bgcnt (k : Fin 4)
  | hofs (k : Fin 4)
  | vofs (k : Fin 4)
  | affineParam (k : Fin 2) (p : AffineParam)
  | refX (k : Fin 2) (high : Bool)
  | refY (k : Fin 2) (high : Bool)
  | win0h
  | win1h
  | win0v
  | win1v
  | winin
  | winout
  | mosaic
  | bldcnt
  | bldalpha
  | bldy
  | sound (r : SoundReg)
  | soundCntH
  | soundCntX
  | soundBias
  | wave (i : Fin 8)
  | fifo (x : Fifo)
  | dmaSad (n : Fin 4) (high : Bool)
  | dmaDad (n : Fin 4) (high : Bool)
  | dmaCount (n : Fin 4)
  | dmaControl (n : Fin 4)
  | timerCount (n : Fin 4)
  | timerControl (n : Fin 4)
  | sio (r : SioReg)
  | keyinput
  | keycnt
  | ie
  | ifl
  | waitcnt
  | ime
  | postHalt
deriving DecidableEq, Repr

/-- The video registers by offset (R100). -/
def ioVideo : List (Nat × IoReg) :=
  [(0x000, .dispcnt), (0x004, .dispstat), (0x006, .vcount), (0x008, .bgcnt 0), (0x00A, .bgcnt 1), (0x00C, .bgcnt 2),
    (0x00E, .bgcnt 3), (0x010, .hofs 0), (0x012, .vofs 0), (0x014, .hofs 1), (0x016, .vofs 1), (0x018, .hofs 2),
    (0x01A, .vofs 2), (0x01C, .hofs 3), (0x01E, .vofs 3)]

/-- The affine registers by offset (R100). -/
def ioAffine : List (Nat × IoReg) :=
  [(0x020, .affineParam 0 .pa), (0x022, .affineParam 0 .pb), (0x024, .affineParam 0 .pc), (0x026, .affineParam 0 .pd),
    (0x028, .refX 0 false), (0x02A, .refX 0 true), (0x02C, .refY 0 false), (0x02E, .refY 0 true),
    (0x030, .affineParam 1 .pa), (0x032, .affineParam 1 .pb), (0x034, .affineParam 1 .pc), (0x036, .affineParam 1 .pd),
    (0x038, .refX 1 false), (0x03A, .refX 1 true), (0x03C, .refY 1 false), (0x03E, .refY 1 true)]

/-- The window, mosaic and blend registers by offset (R100). -/
def ioWindow : List (Nat × IoReg) :=
  [(0x040, .win0h), (0x042, .win1h), (0x044, .win0v), (0x046, .win1v), (0x048, .winin), (0x04A, .winout),
    (0x04C, .mosaic), (0x050, .bldcnt), (0x052, .bldalpha), (0x054, .bldy)]

/-- The sound registers by offset (R100). -/
def ioSound : List (Nat × IoReg) :=
  [(0x060, .sound .cnt1L), (0x062, .sound .cnt1H), (0x064, .sound .cnt1X), (0x068, .sound .cnt2L),
    (0x06C, .sound .cnt2H), (0x070, .sound .cnt3L), (0x072, .sound .cnt3H), (0x074, .sound .cnt3X),
    (0x078, .sound .cnt4L), (0x07C, .sound .cnt4H), (0x080, .sound .cntL), (0x082, .soundCntH), (0x084, .soundCntX),
    (0x088, .soundBias)]

/-- Wave RAM and the FIFOs by offset (R100). -/
def ioWave : List (Nat × IoReg) :=
  [(0x090, .wave 0), (0x092, .wave 1), (0x094, .wave 2), (0x096, .wave 3), (0x098, .wave 4), (0x09A, .wave 5),
    (0x09C, .wave 6), (0x09E, .wave 7), (0x0A0, .fifo .a), (0x0A2, .fifo .a), (0x0A4, .fifo .b), (0x0A6, .fifo .b)]

/-- The registers of DMA channel n by offset (R870). -/
def ioDma (n : Fin 4) : List (Nat × IoReg) :=
  [(0x0B0 + 12 * n.val, .dmaSad n false), (0x0B2 + 12 * n.val, .dmaSad n true), (0x0B4 + 12 * n.val, .dmaDad n false),
    (0x0B6 + 12 * n.val, .dmaDad n true), (0x0B8 + 12 * n.val, .dmaCount n), (0x0BA + 12 * n.val, .dmaControl n)]

/-- The timer registers by offset (R920). -/
def ioTimer : List (Nat × IoReg) :=
  [(0x100, .timerCount 0), (0x102, .timerControl 0), (0x104, .timerCount 1), (0x106, .timerControl 1),
    (0x108, .timerCount 2), (0x10A, .timerControl 2), (0x10C, .timerCount 3), (0x10E, .timerControl 3)]

/-- The serial, keypad, interrupt and system registers by offset (R100). -/
def ioSystem : List (Nat × IoReg) :=
  [(0x120, .sio .multi0), (0x122, .sio .multi1), (0x124, .sio .multi2), (0x126, .sio .multi3), (0x128, .sio .siocnt),
    (0x12A, .sio .send), (0x130, .keyinput), (0x132, .keycnt), (0x134, .sio .rcnt), (0x140, .sio .joycnt),
    (0x150, .sio .recvL), (0x152, .sio .recvH), (0x154, .sio .transL), (0x156, .sio .transH), (0x158, .sio .joystat),
    (0x200, .ie), (0x202, .ifl), (0x204, .waitcnt), (0x208, .ime), (0x300, .postHalt)]

/-- The register block by offset (R100). Offsets not listed are unused (D11, D48). -/
def ioTable : List (Nat × IoReg) :=
  ioVideo ++ ioAffine ++ ioWindow ++ ioSound ++ ioWave ++ ioDma 0 ++ ioDma 1 ++ ioDma 2 ++ ioDma 3 ++ ioTimer
    ++ ioSystem

/-- The register at an even offset (R100, R187). -/
def ioReg (o : Nat) : Option IoReg := ioTable.lookup o

/-! ### Serial stub -/

/-- A serial register (R1130). -/
def Sio.get (x : Sio) : SioReg → Half
  | .multi0 => x.multi0 | .multi1 => x.multi1 | .multi2 => x.multi2 | .multi3 => x.multi3 | .siocnt => x.siocnt
  | .send => x.send | .rcnt => x.rcnt | .joycnt => x.joycnt | .recvL => x.recvL | .recvH => x.recvH
  | .transL => x.transL | .transH => x.transH | .joystat => x.joystat

/-- Store a serial register (R1130). -/
def Sio.set (x : Sio) (v : Half) : SioReg → Sio
  | .multi0 => { x with multi0 := v } | .multi1 => { x with multi1 := v } | .multi2 => { x with multi2 := v }
  | .multi3 => { x with multi3 := v } | .siocnt => { x with siocnt := v } | .send => { x with send := v }
  | .rcnt => { x with rcnt := v } | .joycnt => { x with joycnt := v } | .recvL => { x with recvL := v }
  | .recvH => { x with recvH := v } | .transL => { x with transL := v } | .transH => { x with transH := v }
  | .joystat => { x with joystat := v }

/-! ### Writes -/

/-- Update the PPU. -/
def State.mapPpu (f : Ppu → Ppu) (s : State) : State := { s with ppu := f s.ppu }

/-- Update the APU. -/
def State.mapApu (f : Apu → Apu) (s : State) : State := { s with apu := f s.apu }

/-- Store an affine parameter (R965). -/
def Affine.setParam (a : Affine) (v : Half) : AffineParam → Affine
  | .pa => { a with pa := v }
  | .pb => { a with pb := v }
  | .pc => { a with pc := v }
  | .pd => { a with pd := v }

/-- An affine parameter. -/
def Affine.param (a : Affine) : AffineParam → Half
  | .pa => a.pa
  | .pb => a.pb
  | .pc => a.pc
  | .pd => a.pd

/-- The stored bits of WAITCNT (R183): bits 13 and 15 are not. -/
def waitcntMask : Half := 0x5FFF#16

/-- The two bytes of a halfword, the lower address first. -/
def halfBytes (v : Half) : List Byte := [v.extractLsb' 0 8, v.extractLsb' 8 8]

/-- A 16-bit write of a register (R102 and the rule of each register). -/
def State.writeReg (r : IoReg) (v : Half) (s : State) : State :=
  match r with
  | .dispcnt => s.mapPpu (·.writeDispcnt v)
  | .dispstat => s.mapPpu (·.writeDispstat v)
  | .vcount => s
  | .bgcnt k => s.mapPpu (·.writeBgcnt k v)
  | .hofs k => s.mapPpu (·.writeHofs k v)
  | .vofs k => s.mapPpu (·.writeVofs k v)
  | .affineParam k p => s.mapPpu fun q => q.setAffine k ((q.affine.get k).setParam v p)
  | .refX k high => s.mapPpu fun q => q.setAffine k ((q.affine.get k).writeX high v)
  | .refY k high => s.mapPpu fun q => q.setAffine k ((q.affine.get k).writeY high v)
  | .win0h => s.mapPpu fun q => { q with win0h := v }
  | .win1h => s.mapPpu fun q => { q with win1h := v }
  | .win0v => s.mapPpu fun q => { q with win0v := v }
  | .win1v => s.mapPpu fun q => { q with win1v := v }
  | .winin => s.mapPpu fun q => { q with winin := v &&& 0x3F3F#16 }
  | .winout => s.mapPpu fun q => { q with winout := v &&& 0x3F3F#16 }
  | .mosaic => s.mapPpu fun q => { q with mosaic := v }
  | .bldcnt => s.mapPpu fun q => { q with bldcnt := v &&& 0x3FFF#16 }
  | .bldalpha => s.mapPpu fun q => { q with bldalpha := v &&& 0x1F1F#16 }
  | .bldy => s.mapPpu fun q => { q with bldy := v.setWidth 5 }
  | .sound r => s.mapApu fun a => a.writeReg r v s.cycles
  | .soundCntH => s.mapApu fun a => a.writeCntH v
  | .soundCntX => s.mapApu fun a => a.writeCntX v s.cycles
  | .soundBias => s.mapApu fun a => a.writeBias v
  | .wave i => s.writeWave i.val v
  | .fifo x => s.mapApu (·.push x (halfBytes v))
  | .dmaSad n high => s.writeSad n high v
  | .dmaDad n high => s.writeDad n high v
  | .dmaCount n => s.writeDmaCount n v
  | .dmaControl n => s.writeDmaControl n v
  | .timerCount n => s.writeTimerReload n v
  | .timerControl n => s.writeTimerControl n v
  | .sio r => { s with sio := s.sio.set v r }
  | .keyinput => s
  | .keycnt => { s with keycnt := v &&& 0xC3FF#16 }
  | .ie => { s with irq := { s.irq with ie := v.setWidth 14 } }
  | .ifl => s.dismissIrqs (v.setWidth 14)
  | .waitcnt => { s with waitcnt := v &&& waitcntMask }
  | .ime => { s with irq := { s.irq with ime := v.getLsbD 0 } }
  | .postHalt => (s.writePostflg (v.extractLsb' 0 8)).writeHaltcnt (v.extractLsb' 8 8)

/-- The halfword an 8-bit write merges into: the bits last written (R101, log entry 12). IF merges into 0, since a 0
bit leaves a flag; bits that only act when written are 0. -/
def State.writeFace (s : State) : IoReg → Half
  | .dispcnt => s.ppu.dispcnt
  | .dispstat => s.ppu.dispstat
  | .vcount => 0#16
  | .bgcnt k => s.ppu.bgcnt.get k
  | .hofs k => (s.ppu.hofs.get k).setWidth 16
  | .vofs k => (s.ppu.vofs.get k).setWidth 16
  | .affineParam k p => (s.ppu.affine.get k).param p
  | .refX k high => wordHalf ((s.ppu.affine.get k).x.setWidth 32) high
  | .refY k high => wordHalf ((s.ppu.affine.get k).y.setWidth 32) high
  | .win0h => s.ppu.win0h
  | .win1h => s.ppu.win1h
  | .win0v => s.ppu.win0v
  | .win1v => s.ppu.win1v
  | .winin => s.ppu.winin
  | .winout => s.ppu.winout
  | .mosaic => s.ppu.mosaic
  | .bldcnt => s.ppu.bldcnt
  | .bldalpha => s.ppu.bldalpha
  | .bldy => s.ppu.bldy.setWidth 16
  | .sound r => s.apu.stored r
  | .soundCntH => s.apu.cntH
  | .soundCntX => s.apu.readCntX
  | .soundBias => s.apu.bias
  | .wave i => s.readWave i.val
  | .fifo _ => 0#16
  | .dmaSad n high => wordHalf (s.dmaChan n).sad high
  | .dmaDad n high => wordHalf (s.dmaChan n).dad high
  | .dmaCount n => (s.dmaChan n).cntL
  | .dmaControl n => (s.dmaChan n).cntH
  | .timerCount n => (s.timer n).reload
  | .timerControl n => (s.timer n).ctl.setWidth 16
  | .sio r => s.sio.get r
  | .keyinput => 0#16
  | .keycnt => s.keycnt
  | .ie => s.irq.ie.setWidth 16
  | .ifl => 0#16
  | .waitcnt => s.waitcnt
  | .ime => (BitVec.ofBool s.irq.ime).setWidth 16
  | .postHalt => 0#16

/-- Put a byte into the low or high half of a halfword. -/
def mergeByte (face : Half) (high : Bool) (v : Byte) : Half :=
  if high then v ++ face.extractLsb' 0 8 else face.extractLsb' 8 8 ++ v

/-- A 16-bit write at an even offset; unused offsets discard it (R103, D11). -/
def State.writeIoHalf (o : Nat) (v : Half) (s : State) : State :=
  match ioReg o with
  | none => s
  | some r => s.writeReg r v

/-- An 8-bit write at an offset under the Merge policy (R101, D12): the FIFOs push one byte (R1064), and POSTFLG and
HALTCNT are byte registers (R841, R843). -/
def State.writeIoByteMerge (o : Nat) (v : Byte) (s : State) : State :=
  match ioReg (o - o % 2) with
  | none => s
  | some (.fifo x) => s.mapApu (·.push x [v])
  | some .postHalt => if o % 2 = 0 then s.writePostflg v else s.writeHaltcnt v
  | some r => s.writeReg r (mergeByte (s.writeFace r) (o % 2 == 1) v)

/-- A write at an aligned offset: 32 bits are two 16-bit writes, the lower first (R101, R187). -/
def State.writeIo (o : Nat) (v : Word) (s : State) : Width → State
  | .byte => if s.params.ioByteIgnore.contains o then s else s.writeIoByteMerge o (v.setWidth 8)
  | .half => s.writeIoHalf o (v.setWidth 16)
  | .word => (s.writeIoHalf o (v.setWidth 16)).writeIoHalf (o + 2) (v.extractLsb' 16 16)

/-! ### Reads -/

/-- A read that draws (R103, D11). -/
def State.drawHalf (s : State) : Half × State := ((s.draw).1.setWidth 16, (s.draw).2)

/-- A 16-bit read of a register (the rule of each); write-only registers draw. -/
def State.readReg (s : State) : IoReg → Half × State
  | .dispcnt => (s.ppu.dispcnt, s)
  | .dispstat => (s.ppu.readDispstat, s)
  | .vcount => (BitVec.ofNat 16 s.ppu.vcount, s)
  | .bgcnt k => (s.ppu.bgcnt.get k, s)
  | .hofs _ => s.drawHalf
  | .vofs _ => s.drawHalf
  | .affineParam _ _ => s.drawHalf
  | .refX _ _ => s.drawHalf
  | .refY _ _ => s.drawHalf
  | .win0h => s.drawHalf
  | .win1h => s.drawHalf
  | .win0v => s.drawHalf
  | .win1v => s.drawHalf
  | .winin => (s.ppu.winin, s)
  | .winout => (s.ppu.winout, s)
  | .mosaic => s.drawHalf
  | .bldcnt => (s.ppu.bldcnt, s)
  | .bldalpha => (s.ppu.bldalpha, s)
  | .bldy => s.drawHalf
  | .sound r => (s.apu.readReg r, s)
  | .soundCntH => (s.apu.cntH, s)
  | .soundCntX => (s.apu.readCntX, s)
  | .soundBias => (s.apu.bias, s)
  | .wave i => (s.readWave i.val, s)
  | .fifo _ => s.drawHalf
  | .dmaSad _ _ => s.drawHalf
  | .dmaDad _ _ => s.drawHalf
  | .dmaCount _ => s.drawHalf
  | .dmaControl n => ((s.dmaChan n).cntH, s)
  | .timerCount n => (s.readTimerCount n, s)
  | .timerControl n => ((s.timer n).ctl.setWidth 16, s)
  | .sio r => (s.sio.get r, s)
  | .keyinput => (s.keyInput, s)
  | .keycnt => (s.keycnt, s)
  | .ie => (s.irq.ie.setWidth 16, s)
  | .ifl => (s.irq.ifl.setWidth 16, s)
  | .waitcnt => (s.waitcnt, s)
  | .ime => ((BitVec.ofBool s.irq.ime).setWidth 16, s)
  | .postHalt => ((s.draw).1.setWidth 8 ++ (BitVec.ofBool s.postflg).setWidth 8, (s.draw).2)

/-- A 16-bit read at an even offset; unused offsets draw (R103, D11, D48). -/
def State.readIoHalf (s : State) (o : Nat) : Half × State :=
  match ioReg o with
  | none => s.drawHalf
  | some r => s.readReg r

/-- A read at an aligned offset, zero-extended: 8 bits are the addressed byte of the halfword, 32 bits two 16-bit
reads, the lower first (R101). -/
def State.readIo (s : State) (o : Nat) : Width → Word × State
  | .byte =>
    let r := s.readIoHalf (o - o % 2)
    ((r.1.extractLsb' (8 * (o % 2)) 8).setWidth 32, r.2)
  | .half =>
    let r := s.readIoHalf o
    (r.1.setWidth 32, r.2)
  | .word =>
    let lo := s.readIoHalf o
    let hi := lo.2.readIoHalf (o + 2)
    (hi.1 ++ lo.1, hi.2)

end Sys2Proof.Machine
end

