-- ==== Sys2Proof/Machine/Save.lean ====
section
/-! DEFINITION. The cartridge's devices: the GPIO window (65_io_misc.md R1140, R1141), the Flash protocol (R1155-R1157)
and the EEPROM serial protocol (R1162-R1165). -/

namespace Sys2Proof.Machine

/-- The first storage address of save memory. -/
abbrev saveBase : Nat := 0x0E000000

/-! ### GPIO -/

/-- Whether a ROM offset is in the GPIO window of slot 0x08 (R1140). -/
def inGpioWindow (off : Nat) : Bool := 0xC4 ≤ off && off < 0xCA

/-- The input pins at a read, as GPIO_DEVICE supplies them (R1141, log entry 13). -/
def State.gpioPins (s : State) : BitVec 4 := Config.gpioDevice s.gpio.writes s.draws

/-- A read of a GPIO register at an even offset (R1140): output pins as last written, input pins from the device. -/
def State.readGpioHalf (off : Nat) (s : State) : Half × State :=
  if off = 0xC4 then
    (((s.gpio.data &&& s.gpio.dir) ||| (s.gpioPins &&& ~~~s.gpio.dir)).setWidth 16, s.draw.2)
  else if off = 0xC6 then (s.gpio.dir.setWidth 16, s)
  else ((BitVec.ofBool s.gpio.readable).setWidth 16, s)

/-- A write of one byte of the GPIO window (R1140); the other offsets hold no bits. A write of the data register is passed
to the device (R1141). -/
def Gpio.writeByte (off : Nat) (v : Byte) (g : Gpio) : Gpio :=
  if off = 0xC4 then { g with data := v.setWidth 4, writes := (v.setWidth 4, g.dir) :: g.writes }
  else if off = 0xC6 then { g with dir := v.setWidth 4 }
  else if off = 0xC8 then { g with readable := v.getLsbD 0 }
  else g

/-- The bytes of a write of n bytes at a ROM offset, each to the GPIO window. -/
def Gpio.write (off : Nat) (v : Word) : Nat → Gpio → Gpio
  | 0, g => g
  | n + 1, g => (Gpio.write off v n g).writeByte (off + n) (byteOf v n)

/-! ### Flash -/

/-- The storage address of a Flash byte (R1156). -/
def Flash.key (f : Flash) (off : Nat) : Nat := saveBase + (if f.bank then 0x10000 else 0) + off

/-- A Flash read of one byte (R1156). -/
def State.flashRead (s : State) (off : Nat) : Byte :=
  if s.save.flash.idMode && off == 0 then s.params.flashMaker
  else if s.save.flash.idMode && off == 1 then s.params.flashDevice
  else s.mem.byte (s.save.flash.key off)

/-- Fill n bytes of memory from a storage address with 0xFF. -/
def Memory.erase (m : Memory) (k : Nat) : Nat → Memory
  | 0 => m
  | n + 1 => (Memory.erase m k n).set (k + n) 0xFF#8

/-- The size of the Flash in bytes. -/
def flashSize (b : Backend) : Nat := if b = .flash128 then 0x20000 else 0x10000

/-- Replace the Flash protocol state. -/
def State.setFlash (f : Flash) (s : State) : State := { s with save := { s.save with flash := f } }

/-- The command of an unlocked Flash (R1157, stage 2 without a pending erase). -/
def flashCommand (b : Backend) (v : Byte) (f : Flash) : Flash :=
  if v = 0x90#8 then { f with idMode := true }
  else if v = 0xF0#8 then { f with idMode := false }
  else if v = 0x80#8 then { f with pending := .erase }
  else if v = 0xA0#8 then { f with pending := .program }
  else if v = 0xB0#8 ∧ b = .flash128 then { f with pending := .bank }
  else f

/-- The second byte of an erase command (R1157, stage 2 with a pending erase). -/
def State.flashErase (off : Nat) (v : Byte) (s : State) : State :=
  let f := { s.save.flash with stage := .idle, pending := .none }
  if off = 0x5555 ∧ v = 0x10#8 then (s.setMem (s.mem.erase saveBase (flashSize s.save.backend))).setFlash f
  else if v = 0x30#8 then (s.setMem (s.mem.erase (f.key (off - off % 0x1000)) 0x1000)).setFlash f
  else s.setFlash f

/-- FlashWrite(o, v) (R1157). -/
def State.flashWrite (off : Nat) (v : Byte) (s : State) : State :=
  let f := s.save.flash
  if f.pending = .program then (s.setMem (s.mem.set (f.key off) v)).setFlash { f with pending := .none }
  else if f.pending = .bank ∧ off = 0 then s.setFlash { f with bank := v.getLsbD 0, pending := .none }
  else match f.stage with
  | .idle => if off = 0x5555 ∧ v = 0xAA#8 then s.setFlash { f with stage := .first } else s
  | .first =>
    if off = 0x2AAA ∧ v = 0x55#8 then s.setFlash { f with stage := .unlocked } else s.setFlash { f with stage := .idle }
  | .unlocked =>
    if f.pending = .erase then s.flashErase off v
    else if off = 0x5555 then s.setFlash (flashCommand s.save.backend v { f with stage := .idle })
    else s.setFlash { f with stage := .idle }

/-! ### EEPROM -/

/-- Whether an address is the EEPROM port (R192, R1162). -/
def State.isEepromPort (s : State) (a : Word) : Bool :=
  s.save.backend == .eeprom && a.extractLsb' 24 8 == 0x0D#8
    && (s.romLen ≤ 0x1000000 || (a.toNat % 0x1000000) ≥ 0xFFFF00)

/-- The address width in bits. -/
def EepromBits.width : EepromBits → Nat
  | .six => 6
  | .fourteen => 14
  | .undecided => 14

/-- The number of 64-bit blocks (R1163). -/
def EepromBits.blocks : EepromBits → Nat
  | .six => 64
  | .fourteen => 1024
  | .undecided => 1024

/-- Bits as a number, most significant first. -/
def bitsToNat (bs : List Bool) : Nat := bs.foldl (fun acc b => 2 * acc + b.toNat) 0

/-- Bits as bytes, the first bit the most significant of the first byte. -/
def bitsToBytes : Nat → List Bool → List Byte
  | 0, _ => []
  | n + 1, bs => BitVec.ofNat 8 (bitsToNat (bs.take 8)) :: bitsToBytes n (bs.drop 8)

/-- The storage address of an EEPROM block, its number taken modulo the number of blocks (R1163). -/
def EepromBits.blockKey (b : EepromBits) (block : Nat) : Nat := saveBase + 8 * (block % b.blocks)

/-- Replace the EEPROM protocol state. -/
def State.setEeprom (e : Eeprom) (s : State) : State := { s with save := { s.save with eeprom := e } }

/-- EepromWrite(b) (R1163). -/
def State.eepromWrite (b : Bool) (s : State) : State :=
  let e := s.save.eeprom
  let bits := if e.bits = .undecided then .fourteen else e.bits
  let n := bits.width
  let received := e.inBits ++ [b]
  let idle : Eeprom := { bits := bits, inBits := [], out := none }
  if received.head? = some false then s.setEeprom idle
  else if received.length = n + 3 ∧ received.take 2 = [true, true] then
    s.setEeprom { idle with out := some (bitsToNat ((received.drop 2).take n), 0) }
  else if received.length = n + 67 ∧ received.take 2 = [true, false] then
    (s.setMem (s.mem.load (bits.blockKey (bitsToNat ((received.drop 2).take n)))
      (bitsToBytes 8 ((received.drop (n + 2)).take 64)))).setEeprom idle
  else s.setEeprom { bits := bits, inBits := received, out := none }

/-- The bit an EEPROM read gives (R1165). -/
def State.eepromBit (s : State) : Bool :=
  match s.save.eeprom.out with
  | none => true
  | some (block, pos) =>
    if pos < 4 then false
    else (s.mem.byte (s.save.eeprom.bits.blockKey block + (pos - 4) / 8)).getLsbD (7 - (pos - 4) % 8)

/-- An EEPROM serial read (R1165): the bit, and the read position moved on. -/
def State.eepromRead (s : State) : Word × State :=
  let e := s.save.eeprom
  let next := match e.out with
    | none => none
    | some (block, pos) => if pos ≥ 67 then none else some (block, pos + 1)
  ((BitVec.ofBool s.eepromBit).setWidth 32, s.setEeprom { e with out := next })

/-- EepromSizeHint(n, k) (R1164), for a transfer to an address. -/
def State.eepromSizeHint (n : Fin 4) (k : Nat) (dst : Word) (s : State) : State :=
  let e := s.save.eeprom
  if s.isEepromPort dst && n == 3 && e.bits == .undecided then
    if k = 9 ∨ k = 73 then s.setEeprom { e with bits := .six }
    else if k = 17 ∨ k = 81 then s.setEeprom { e with bits := .fourteen }
    else s
  else s

end Sys2Proof.Machine
end

