-- ==== Sys2Proof/Machine/Timing.lean ====
section
/-! DEFINITION. The region table (20_memory.md R150-R152, R192), the wait states (R180-R184) and the billing of code
accesses (70_reset_and_hazards.md R1200, R1201; the reference CYCLE_COST, log entry 29). -/

namespace Sys2Proof.Machine

/-- The regions of R152. -/
inductive Region where
  | bios
  | ewram
  | iwram
  | io
  | palette
  | vram
  | oam
  | rom0
  | rom1
  | rom2
  | save
  | unmapped
deriving DecidableEq, Repr

/-- The slot of an address (R150): its top byte. -/
def slot (a : Word) : Nat := (a.extractLsb' 24 8).toNat

/-- The region of a slot (R152). -/
def regionOfSlot (k : Nat) : Region :=
  if k = 0x00 then .bios
  else if k = 0x02 then .ewram
  else if k = 0x03 then .iwram
  else if k = 0x04 then .io
  else if k = 0x05 then .palette
  else if k = 0x06 then .vram
  else if k = 0x07 then .oam
  else if k = 0x08 ∨ k = 0x09 then .rom0
  else if k = 0x0A ∨ k = 0x0B then .rom1
  else if k = 0x0C ∨ k = 0x0D then .rom2
  else if k = 0x0E ∨ k = 0x0F then .save
  else .unmapped

/-- The region of an address; with an EEPROM backend the save slots are unmapped (R192). -/
def State.region (s : State) (a : Word) : Region :=
  match regionOfSlot (slot a) with
  | .save => if s.save.backend = .eeprom then .unmapped else .save
  | r => r

/-- The first-access waits, indexed by a 2-bit field (R184). -/
def firstWait (b : BitVec 2) : Nat :=
  if b = 0#2 then 4 else if b = 1#2 then 3 else if b = 2#2 then 2 else 8

/-- N_k for the three ROM regions (R184). -/
def romN (waitcnt : Half) : Region → Nat
  | .rom0 => firstWait (waitcnt.extractLsb' 2 2)
  | .rom1 => firstWait (waitcnt.extractLsb' 5 2)
  | _ => firstWait (waitcnt.extractLsb' 8 2)

/-- S_k for the three ROM regions (R184). -/
def romS (waitcnt : Half) : Region → Nat
  | .rom0 => if waitcnt.getLsbD 4 then 1 else 2
  | .rom1 => if waitcnt.getLsbD 7 then 1 else 4
  | _ => if waitcnt.getLsbD 10 then 1 else 8

/-- WS(region, width, seq) (R180); 8- and 16-bit accesses are alike. -/
def waitStates (waitcnt : Half) (r : Region) (w : Width) (seq : Bool) : Nat :=
  match r with
  | .ewram => if w = .word then 5 else 2
  | .palette | .vram => if w = .word then 1 else 0
  | .rom0 | .rom1 | .rom2 =>
    if w = .word then
      if seq then 2 * romS waitcnt r + 1 else romN waitcnt r + romS waitcnt r + 1
    else if seq then romS waitcnt r else romN waitcnt r
  | .save => firstWait (waitcnt.extractLsb' 0 2)
  | .bios | .iwram | .io | .oam | .unmapped => 0

/-- The cost of an access (R180). -/
def State.cost (s : State) (a : Word) (w : Width) (seq : Bool) : Nat := 1 + waitStates s.waitcnt (s.region a) w seq

/-- Bill an access. -/
def State.billAccess (a : Word) (w : Width) (seq : Bool) (s : State) : State := s.bill (s.cost a w seq)

/-- The instruction width of an encoding mode (R13). -/
def codeWidth (thumb : Bool) : Width := if thumb then .half else .word

/-- The instruction width in bytes, as an address step (R61). -/
def codeStep (thumb : Bool) : Word := if thumb then 2#32 else 4#32

/-- The prefetch address P of the executing instruction (R1201). -/
def State.prefetch (s : State) : Word := s.cpu.pc + (if s.cpu.cpsr.t then 4#32 else 8#32)

/-- Bill the code access S(P) or N(P) of the executing instruction (R1201). -/
def State.billCode (seq : Bool) (s : State) : State := s.billAccess s.prefetch (codeWidth s.cpu.cpsr.t) seq

/-- Bill the refill N(T), S(T + step) at the program counter, in the encoding mode CPSR.T now selects (R1201). -/
def State.billRefill (step : Word) (s : State) : State :=
  (s.billAccess s.cpu.pc (codeWidth s.cpu.cpsr.t) false).billAccess (s.cpu.pc + step) (codeWidth s.cpu.cpsr.t) true

end Sys2Proof.Machine
end

