-- ==== Sys2Proof/Machine/Bus.lean ====
section
/-! DEFINITION. The backing stores behind the region table (20_memory.md R172, R185-R193): a read and a write of an
aligned unit, without billing, rotation or hazards; and the decoded-instruction cache (R195-R201). -/

namespace Sys2Proof.Machine

/-- Who makes a read (R185, D10). -/
inductive Master where
  | cpu
  | fetch
  | dma
deriving DecidableEq, Repr

/-- SENTINEL(8n) (R172), zero-extended. -/
def sentinel : Width → Word
  | .byte => Config.sentinel8.setWidth 32
  | .half => Config.sentinel16.setWidth 32
  | .word => Config.sentinel32

/-- A byte replicated into every lane of a width (R192, D71). -/
def replicateByte (b : Byte) : Width → Word
  | .byte => b.setWidth 32
  | .half => (b ++ b).setWidth 32
  | .word => b ++ b ++ b ++ b

/-- A read that draws a value of the access width (R193, D9). -/
def State.drawWidth (s : State) (w : Width) : Word × State := (w.trim s.draw.1, s.draw.2)

/-- The offset in the BIOS and I/O slots (R152). -/
def slotOffset (a : Word) : Nat := a.toNat % 0x1000000

/-- The offset in the cartridge ROM (R152). -/
def romOffset (a : Word) : Nat := a.toNat % 0x2000000

/-- The storage address of an aligned address in a region that is plain memory (R152). -/
def storageKey (r : Region) (a : Word) : Nat :=
  match r with
  | .bios => slotOffset a
  | .ewram => 0x02000000 + a.toNat % 0x40000
  | .iwram => 0x03000000 + a.toNat % 0x8000
  | .palette => 0x05000000 + a.toNat % 0x400
  | .vram => 0x06000000 + vramOffset a
  | .oam => 0x07000000 + a.toNat % 0x400
  | .rom0 | .rom1 | .rom2 => 0x08000000 + romOffset a
  | .save => saveBase + a.toNat % 0x8000
  | .io | .unmapped => a.toNat

/-- Whether a BIOS read at an offset is answered with a draw (R185, D10): a data read by code outside the BIOS slot, or
a DMA read. -/
def State.biosProtected (s : State) : Master → Bool
  | .cpu => slot s.cpu.pc != 0
  | .fetch => false
  | .dma => true

/-- A BIOS read (R172, R185): the sentinel past the end of the image and for a word that straddles it; else a draw if the
read is protected; else the image. Two corners are the model's choice (log entry 15): a protected word that straddles the
end, which R172 makes the sentinel and R185 a draw, is the sentinel; an unprotected halfword that does is the sentinel. -/
def State.readBios (s : State) (who : Master) (a : Word) (w : Width) : Word × State :=
  let straddles := slotOffset a + w.bytes > s.biosLen
  if s.biosLen ≤ slotOffset a ∨ (w = .word ∧ straddles) then (sentinel w, s)
  else if s.biosProtected who then s.drawWidth w
  else if straddles then (sentinel w, s)
  else (s.mem.read (storageKey .bios a) w, s)

/-- A read of the ROM image (R172, R191). -/
def State.readRomImage (s : State) (a : Word) (w : Width) : Word :=
  if romOffset a + w.bytes > s.romLen then sentinel w else s.mem.read (storageKey .rom0 a) w

/-- A read that touches the readable GPIO window (R1140): the registers by halfwords. A word at 0xC8, of which the window
covers the low half only, is the model's choice (log entry 13): its upper half is a halfword read of the ROM image at
0xCA, SENTINEL(16) when the image ends before 0xCC, where R172 gives a 32-bit read over the image's end SENTINEL(32). -/
def State.readGpio (s : State) (a : Word) : Width → Word × State
  | .byte =>
    let r := s.readGpioHalf (romOffset a - romOffset a % 2)
    ((r.1.extractLsb' (8 * (romOffset a % 2)) 8).setWidth 32, r.2)
  | .half =>
    let r := s.readGpioHalf (romOffset a)
    (r.1.setWidth 32, r.2)
  | .word =>
    let lo := s.readGpioHalf (romOffset a)
    if inGpioWindow (romOffset a + 2) then
      let hi := lo.2.readGpioHalf (romOffset a + 2)
      (hi.1 ++ lo.1, hi.2)
    else ((s.readRomImage (a + 2#32) .half).setWidth 16 ++ lo.1, lo.2)

/-- A cartridge ROM read (R191, R192, R1140). -/
def State.readRom (s : State) (a : Word) (w : Width) : Word × State :=
  if s.isEepromPort a then s.eepromRead
  else if slot a = 0x08 ∧ inGpioWindow (romOffset a) ∧ s.gpio.readable then s.readGpio a w
  else (s.readRomImage a w, s)

/-- A save memory read (R192, R1152, R1156): one byte, replicated. -/
def State.readSave (s : State) (a : Word) (w : Width) : Word :=
  match s.save.backend with
  | .sram => replicateByte (s.mem.byte (storageKey .save a)) w
  | _ => replicateByte (s.flashRead (a.toNat % 0x10000)) w

/-- R.read of R170 at an aligned address. -/
def State.readRaw (s : State) (who : Master) (a : Word) (w : Width) : Word × State :=
  match s.region a with
  | .bios => s.readBios who a w
  | .io => s.readIo (slotOffset a) w
  | .rom0 | .rom1 | .rom2 => s.readRom a w
  | .save => (s.readSave a w, s)
  | .unmapped => s.drawWidth w
  | .ewram => (s.mem.read (storageKey .ewram a) w, s)
  | .iwram => (s.mem.read (storageKey .iwram a) w, s)
  | .palette => (s.mem.read (storageKey .palette a) w, s)
  | .vram => (s.mem.read (storageKey .vram a) w, s)
  | .oam => (s.mem.read (storageKey .oam a) w, s)

/-! ### Writes -/

/-- Write both bytes of the halfword that holds an address (R188, R189, D55). -/
def State.writeTwice (r : Region) (a : Word) (v : Word) (s : State) : State :=
  s.setMem (s.mem.write (storageKey r (Width.half.align a)) (replicateByte (byteOf v 0) .half) .half)

/-- A palette write (R188). -/
def State.writePalette (a v : Word) (s : State) : Width → State
  | .byte => s.writeTwice .palette a v
  | w => s.setMem (s.mem.write (storageKey .palette a) v w)

/-- A VRAM write (R189): a byte is duplicated in the background area and discarded in the object area. -/
def State.writeVram (a v : Word) (s : State) : Width → State
  | .byte => if vramOffset a < s.ppu.bgArea then s.writeTwice .vram a v else s
  | w => s.setMem (s.mem.write (storageKey .vram a) v w)

/-- An OAM write (R190). -/
def State.writeOam (a v : Word) (s : State) : Width → State
  | .byte => s
  | w => s.setMem (s.mem.write (storageKey .oam a) v w)

/-- A cartridge ROM write (R191, R192, R1140): the EEPROM port, the GPIO window, else discarded. -/
def State.writeRom (a v : Word) (w : Width) (s : State) : State :=
  if s.isEepromPort a then s.eepromWrite (v.getLsbD 0)
  else if slot a = 0x08 ∧ inGpioWindow (romOffset a) then
    { s with gpio := Gpio.write (romOffset a) v w.bytes s.gpio }
  else s

/-- A save memory write (R192, R1152, R1157): a wide one is Fault(Unpredictable) (D71); that its information is the
aligned address is the model's choice, since the spec names none (log entry 32). -/
def State.writeSave (a v : Word) (s : State) : Width → Except Fault State
  | .byte =>
    match s.save.backend with
    | .sram => .ok (s.setMem (s.mem.write (storageKey .save a) v .byte))
    | _ => .ok (s.flashWrite (a.toNat % 0x10000) (byteOf v 0))
  | _ => .error (s.raise (.unpredictable s.cpu.pc a))

/-- R.write of R171 at an aligned address; read-only regions discard it. -/
def State.writeRaw (a : Word) (w : Width) (v : Word) (s : State) : Except Fault State :=
  match s.region a with
  | .bios => .ok s
  | .io => .ok (s.writeIo (slotOffset a) v w)
  | .rom0 | .rom1 | .rom2 => .ok (s.writeRom a v w)
  | .save => s.writeSave a v w
  | .unmapped => .ok s
  | .ewram => .ok (s.setMem (s.mem.write (storageKey .ewram a) v w))
  | .iwram => .ok (s.setMem (s.mem.write (storageKey .iwram a) v w))
  | .palette => .ok (s.writePalette a v w)
  | .vram => .ok (s.writeVram a v w)
  | .oam => .ok (s.writeOam a v w)

/-! ### The decoded-instruction cache -/

/-- Whether instructions at an address are cached (R196, D13). -/
def State.cacheable (s : State) (a : Word) : Bool :=
  match s.region a with
  | .io | .unmapped | .save => false
  | .rom0 | .rom1 | .rom2 =>
    !(s.isEepromPort a || (slot a == 0x0D && s.save.backend == .eeprom))
      && !(slot a == 0x08 && 0xC4 / s.params.icachePageBytes ≤ romOffset a / s.params.icachePageBytes
        && romOffset a / s.params.icachePageBytes ≤ 0xC9 / s.params.icachePageBytes)
  | _ => true

/-- Memoize a fetched instruction (R196). The word used is always the one read (R200, log entry 11). -/
def State.cacheFill (a : Word) (thumb : Bool) (word : Word) (s : State) : State :=
  let k := storageKey (s.region a) a
  if s.cacheable a && !(s.icache.any fun e => e.key == k && e.thumb == thumb) then
    { s with icache := { key := k, thumb := thumb, word := word } :: s.icache }
  else s

/-- InvalidatePages(a, n) (R198, R201): discard the entries of the page an aligned write touches, whichever mirror it
goes through. -/
def State.invalidatePages (a : Word) (s : State) : State :=
  let page := storageKey (s.region a) a / s.params.icachePageBytes
  { s with icache := s.icache.filter fun e => e.key / s.params.icachePageBytes != page }

end Sys2Proof.Machine
end

