-- ==== Sys2Proof/Machine/Transfer.lean ====
section
/-! DEFINITION. A write through the MMU with its hazard check and invalidation (20_memory.md R171, R205), the DMA
transfer (61_dma.md R885-R890) and the running of held triggers (R880, D81). -/

namespace Sys2Proof.Machine

/-- The greatest number of rounds of an event pass or a chain of held triggers (log entry 10). -/
def passLimit : Nat := 2 ^ 64

/-- The two instruction slots a write must not touch (R205). -/
structure Window where
  /-- The address of the next instruction. -/
  npc : Word
  /-- The instruction width. -/
  step : Word
deriving DecidableEq, Repr

/-- Whether n bytes from an address touch the window, addresses taken modulo 2^32 (R205, log entry 25): one of the two
ranges starts inside the other. -/
def Window.hit (w : Window) (a : Word) (n : Nat) : Bool :=
  (a - w.npc).toNat < 2 * w.step.toNat || (w.npc - a).toNat < n

/-- The window of a write made inside an instruction (R205). -/
def State.storeWindow (s : State) : Window := ⟨s.cpu.pc + codeStep s.cpu.cpsr.t, codeStep s.cpu.cpsr.t⟩

/-- The window of a DMA write made in an event pass (R205): the next instruction is at pc. -/
def State.passWindow (s : State) : Window := ⟨s.cpu.pc, codeStep s.cpu.cpsr.t⟩

/-- MemWrite(a, n, v) (R171): bill, check the hazard, invalidate, write. The fault records the program counter as it
stands: of a store, and of a DMA it starts, the executing instruction; of a DMA element in the event pass, by the model's
choice, the next instruction (log entry 25). -/
def State.busWrite (win : Window) (a : Word) (w : Width) (v : Word) (seq : Bool) (s : State) : Except Fault State :=
  if win.hit (w.align a) w.bytes then .error ((s.billAccess a w seq).raise (.selfModifyHazard s.cpu.pc a))
  else ((s.billAccess a w seq).invalidatePages (w.align a)).writeRaw (w.align a) w v

/-- Whether an address is in the cartridge ROM slots 0x08 to 0x0D (R885, R889). -/
def inRomSlots (a : Word) : Bool := 0x08 ≤ slot a && slot a ≤ 0x0D

/-- step(control, size, slot) for the source (R889). The table gives none for control 11, which a channel can only take
during its own transfer: the model's choice is 0 (log entry 30). -/
def srcStep (ctl : BitVec 2) (w : Width) (src : Word) : Word :=
  let size := BitVec.ofNat 32 w.bytes
  if inRomSlots src then size
  else if ctl = 0#2 then size else if ctl = 1#2 then -size else 0#32

/-- step(control, size, slot) for the destination (R889); a FIFO transfer does not step it (R890). -/
def dstStep (ctl : BitVec 2) (w : Width) (fifo : Bool) : Word :=
  let size := BitVec.ofNat 32 w.bytes
  if fifo then 0#32
  else if ctl = 0#2 ∨ ctl = 3#2 then size else if ctl = 1#2 then -size else 0#32

/-- Move a channel's internal registers past one element (R886). A count that is 0 already, which only a transfer that
arms its own channel again can meet, stays 0: R872 gives it no value below, and this is the model's choice (log entry
30). -/
def DmaChannel.advance (d : DmaChannel) (src dst : Word) (fifo : Bool) : DmaChannel :=
  { d with isrc := d.isrc + src, idst := d.idst + dst, icount := if fifo then d.icount else d.icount - 1 }

/-- Element(n, size, seq) (R886). Addresses are used aligned and nothing rotates (log entry 27). The steps are those of
the control fields and the source region before the element's write: of a re-write of an armed channel R875 says so, of
a write that disarms or re-arms its own channel it is the model's choice (log entry 30). -/
def State.dmaElement (win : Window) (n : Fin 4) (fifo : Bool) (w : Width) (seq : Bool) (s : State) :
    Except Fault State := do
  let d := s.dmaChan n
  let r := (s.billAccess d.isrc w seq).readRaw .dma (w.align d.isrc) w
  let t ← r.2.busWrite win d.idst w r.1 seq
  return t.setDmaChan n ((t.dmaChan n).advance (srcStep d.srcCtl w d.isrc) (dstStep d.dstCtl w fifo) fifo)

/-- k elements, the first with the given sequentiality and the rest sequential (R885). -/
def State.dmaElements (win : Window) (n : Fin 4) (fifo : Bool) (w : Width) : Nat → Bool → State → Except Fault State
  | 0, _, s => .ok s
  | k + 1, seq, s => do
    let t ← s.dmaElement win n fifo w seq
    t.dmaElements win n fifo w k true

/-- Rearm or disable a channel at the end of a transfer (R887), by the control fields that stand then. A channel that
its own transfer disarmed with repeat set stays disarmed, where R887 has enable stay 1, and its count and destination
are reloaded all the same: the model's choice (log entry 30). -/
def DmaChannel.finish (d : DmaChannel) (n : Fin 4) (z : ZeroCount) (fifo : Bool) : DmaChannel :=
  if d.repeats && d.timing != 0#2 then
    { d with
      icount := if fifo then d.icount else d.countOf n z,
      idst := if d.dstCtl = 3#2 then dmaAlign d.wide d.dad else d.idst }
  else d.disable

/-- EndOfTransfer(n, fifo) (R887, R888), with the interrupt bit that stands then, also where the transfer disarmed its
own channel: the model's choice (log entry 30). -/
def State.endTransfer (n : Fin 4) (fifo : Bool) (s : State) : State :=
  (s.setDmaChan n ((s.dmaChan n).finish n s.params.zeroCount fifo)).raiseIrqIf (s.dmaChan n).irq (8 + n.val)

/-- Whether a channel's timing is an audio FIFO's (R885, R890). -/
def DmaChannel.feedsFifo (d : DmaChannel) (n : Fin 4) : Bool := d.timing == 3#2 && (n == 1 || n == 2)

/-- Transfer(n) (R885); a trigger of a channel that is not enabled is a no-op (R875). The element width, the FIFO kind
and the number of elements are kept for the whole transfer, also when it re-writes its own CNT_H: R885 binds them once,
R875 has new fields apply from the next element, and which of the two holds for them is the model's choice (log entry
30). -/
def State.transfer (win : Window) (n : Fin 4) (s : State) : Except Fault State :=
  let d := s.dmaChan n
  if !d.enabled || d.srcCtl == 3#2 then .ok s
  else
    let fifo := d.feedsFifo n
    let k := if fifo then 4 else d.icount
    let w := if fifo || d.wide then Width.word else Width.half
    if k = 0 then .ok (if !d.repeats || d.timing == 0#2 then s.setDmaChan n d.disable else s)
    else do
      let billed := s.bill (if inRomSlots d.isrc && inRomSlots d.idst then 4 else 2)
      let t ← (billed.eepromSizeHint n k d.idst).dmaElements win n fifo w k false
      return t.endTransfer n fifo

/-- Take channel n out of the held list and mark it running. -/
def State.startDma (n : Fin 4) (rest : List (Fin 4)) (s : State) : State :=
  { s with dma := { s.dma with held := rest, running := some n } }

/-- No transfer is running any more. -/
def State.stopDma (s : State) : State := { s with dma := { s.dma with running := none } }

/-- Run held triggers until none is left, the first of the held list first (R870, R880, D81, log entry 17), for at most
a number of transfers (log entry 10). That a held channel is armed is tested at its turn, by `State.transfer`: the spec
does not say when, and this is the model's choice (log entry 17). -/
def State.drainDma (win : Window) : Nat → State → Except Fault State
  | 0, s => if s.dma.held = [] then .ok s else .error (.endless s)
  | fuel + 1, s =>
    match s.dma.held with
    | [] => .ok s
    | n :: rest => do
      let t ← (s.startDma n rest).transfer win n
      (t.stopDma).drainDma win fuel

/-- Trigger(n) by an event (R880): hold the trigger and run what is held. -/
def State.triggerDma (win : Window) (n : Fin 4) (s : State) : Except Fault State :=
  (s.holdDma n).drainDma win passLimit

end Sys2Proof.Machine
end

