-- ==== Sys2Proof/Machine/Events.lean ====
section
/-! DEFINITION. The scheduler's events (60_exceptions.md R851, R852): timer overflows and FIFO ticks (62_timers.md
R930, 64_apu.md R1080, R1085), the PPU's phase changes (63_ppu.md R995-R1002), and the event pass. -/

namespace Sys2Proof.Machine

/-- Trigger a channel if it is armed with a timing (R880). -/
def State.triggerArmed (win : Window) (timing : BitVec 2) (n : Fin 4) (s : State) : Except Fault State :=
  if (s.dmaChan n).enabled && (s.dmaChan n).timing == timing then s.triggerDma win n else .ok s

/-- Trigger each channel of a list that is armed with a timing, in order (R880, R1000, R1001). Whether a channel is armed
is tested at its turn, after the transfers of the channels before it, which may arm or disarm it: the spec does not say
when, and this is the model's choice (log entry 17). -/
def State.triggerTimed (win : Window) (timing : BitVec 2) : List (Fin 4) → State → Except Fault State
  | [], s => .ok s
  | n :: ns, s => do
    let t ← s.triggerArmed win timing n
    t.triggerTimed win timing ns

/-- The four channels in order. -/
def allChannels : List (Fin 4) := [0, 1, 2, 3]

/-! ### FIFOs and timers -/

/-- The address of a FIFO's port (R1085). -/
def fifoPort : Fifo → Word
  | .a => 0x040000A0#32
  | .b => 0x040000A4#32

/-- The refill request of a FIFO to one of the channels 1 and 2 (R1085). -/
def State.refillFrom (win : Window) (x : Fifo) (n : Fin 4) (s : State) : Except Fault State :=
  let d := s.dmaChan n
  if d.enabled && d.timing == 3#2 && d.dad == fifoPort x then s.triggerDma win n else .ok s

/-- The tick of one FIFO on an overflow of timer n (R1080): take a sample, then ask for a refill at 16 bytes or
fewer. -/
def State.fifoTick (win : Window) (n : Fin 4) (x : Fifo) (s : State) : Except Fault State :=
  if s.apu.fifoTimer x n then
    let t := s.mapApu (·.takeSample x)
    if (t.apu.fifo x).length ≤ 16 then do
      let u ← t.refillFrom win x 1
      u.refillFrom win x 2
    else .ok t
  else .ok s

/-- FifoTimerTick(n) (R1080): FIFO A, then FIFO B, each with its refill. So a refill of A by channel 2 runs before one of B by
channel 1 on the same overflow, where R880 and D31 run the channels of one event in channel order: the model's choice (log
entry 17). -/
def State.fifoTimerTick (win : Window) (n : Fin 4) (s : State) : Except Fault State := do
  let t ← s.fifoTick win n .a
  t.fifoTick win n .b

/-- Count an overflow of the timer before on timer n; true when it reaches 0x10000 (R930). -/
def State.cascadeInto (n : Fin 4) (s : State) : Bool × State :=
  let t := s.timer n
  if t.running && t.cascading n then (t.count + 1 == 0x10000, s.setTimer n { t with count := t.count + 1 })
  else (false, s)

/-- Overflow(n, t) without the cascade (R930): reload, interrupt, FIFO ticks of timers 0 and 1. -/
def State.overflowOne (win : Window) (n : Fin 4) (time : Nat) (s : State) : Except Fault State :=
  let t := s.timer n
  let u := (s.setTimer n (t.reloadAt n time)).raiseIrqIf t.irq (3 + n.val)
  if n = 0 ∨ n = 1 then u.fifoTimerTick win n else .ok u

/-- Overflow of the first timer of a list at a time, cascading down the list (R930). -/
def State.overflowChain (win : Window) (time : Nat) : List (Fin 4) → State → Except Fault State
  | [], s => .ok s
  | n :: ns, s => do
    let t ← s.overflowOne win n time
    match ns with
    | [] => .ok t
    | m :: _ =>
      let c := t.cascadeInto m
      if c.1 then c.2.overflowChain win time ns else .ok c.2

/-- Timer n and the timers after it. -/
def timersFrom (n : Fin 4) : List (Fin 4) := [0, 1, 2, 3].drop n.val

/-! ### PPU -/

/-- The H-draw to H-blank transition at a time (R1001): the line, the interrupt, H-blank DMA on visible lines. -/
def State.hblankStart (win : Window) (time : Nat) (s : State) : Except Fault State :=
  let t := (s.mapPpu (·.enterHblank s.mem time)).raiseIrqIf (s.ppu.dispstat.getLsbD 4) 1
  if s.ppu.vcount < 160 then t.triggerTimed win 2#2 allChannels else .ok t

/-- The V-counter check at a line start (R1002). -/
def State.vcounterCheck (s : State) : State :=
  s.raiseIrqIf (s.ppu.dispstat.getLsbD 5 && s.ppu.vcount == s.ppu.lyc) 2

/-- Hand the frame buffer over to the host (R996). -/
def State.handFrame (s : State) : State :=
  { s with output := { s.output with frames := s.ppu.frame :: s.output.frames } }

/-- The start of V-blank on line 160: the frame, the interrupt and DMA (R996, R1000). -/
def State.vblankStart (win : Window) (s : State) : Except Fault State :=
  if s.ppu.vcount = 160 then
    (s.handFrame.raiseIrqIf (s.ppu.dispstat.getLsbD 3) 0).triggerTimed win 1#2 allChannels
  else .ok s

/-- The start of a line at a time (R1000, R1002): V-blank, then the V-counter check. -/
def State.lineStart (win : Window) (time : Nat) (s : State) : Except Fault State := do
  let t ← (s.mapPpu (·.enterLine time)).vblankStart win
  return t.vcounterCheck

/-- PpuEvent(t) (R995). -/
def State.ppuEvent (win : Window) (time : Nat) (s : State) : Except Fault State :=
  match s.ppu.phase with
  | .hdraw => s.hblankStart win time
  | .hblank => s.lineStart win time

/-! ### The event pass -/

/-- next_s of an event source (R81, R851). -/
def State.nextOf (s : State) : EventSource → Option Nat
  | .ppu => some s.ppu.nextPpu
  | .timer0 => (s.timer 0).next
  | .timer1 => (s.timer 1).next
  | .timer2 => (s.timer 2).next
  | .timer3 => (s.timer 3).next
  | .apuFrame => some s.apu.nextFs
  | .apuSampler => some s.apu.nextSmp
  | .serial => none

/-- Process the event of a source at its due time (R852). -/
def State.event (win : Window) (src : EventSource) (time : Nat) (s : State) : Except Fault State :=
  match src with
  | .ppu => s.ppuEvent win time
  | .timer0 => s.overflowChain win time (timersFrom 0)
  | .timer1 => s.overflowChain win time (timersFrom 1)
  | .timer2 => s.overflowChain win time (timersFrom 2)
  | .timer3 => s.overflowChain win time (timersFrom 3)
  | .apuFrame => .ok (s.apuFrameEvent time)
  | .apuSampler => .ok (s.apuSampleEvent time)
  | .serial => .ok s

/-- Every source: those of the tie order first (D28), then the others. -/
def State.sources (s : State) : List EventSource := s.params.tieOrder ++ Params.default.tieOrder

/-- The earlier of two events, the first at equal times. -/
def earlier (a b : Option (EventSource × Nat)) : Option (EventSource × Nat) :=
  match a, b with
  | none, b => b
  | a, none => a
  | some x, some y => if y.2 < x.2 then some y else some x

/-- The event of least time over a list of sources, ties to the first (R852). -/
def State.earliest (s : State) : List EventSource → Option (EventSource × Nat)
  | [] => none
  | e :: es => earlier ((s.nextOf e).map fun t => (e, t)) (s.earliest es)

/-- The next event. -/
def State.nextEvent (s : State) : Option (EventSource × Nat) := s.earliest s.sources

/-- Process due events, earliest first, for at most a number of rounds (R852, log entry 10). -/
def State.runEvents (win : Window) : Nat → State → Except Fault State
  | 0, s =>
    match s.nextEvent with
    | some (_, t) => if t ≤ s.cycles then .error (.endless s) else .ok s
    | none => .ok s
  | fuel + 1, s =>
    match s.nextEvent with
    | some (src, t) =>
      if t ≤ s.cycles then do
        let u ← s.event win src t
        u.runEvents win fuel
      else .ok s
    | none => .ok s

/-- EventPass() (R852): due events, the keypad check, the wake check. -/
def State.eventPass (s : State) : Except Fault State := do
  let t ← s.runEvents s.passWindow passLimit
  return t.keypadCheck.wake

/-- Advance the counter of a halted CPU to the next event (R850 step 1). -/
def State.skipToEvent (s : State) : State :=
  match s.nextEvent with
  | some (_, t) => { s with cycles := max s.cycles t }
  | none => s

end Sys2Proof.Machine
end

