-- ==== Sys2Proof/Machine/Flags.lean ====
section
/-! DEFINITION. Conditions, the flag computations (00_scope.md R26, 41_arm_dataproc_psr.md R407-R408) and the layout of
the status registers (10_state.md R52, R65). -/

namespace Sys2Proof.Machine

/-- The status register as the word software reads (R65): bits 27:8 are 0. -/
def Psr.toWord (p : Psr) : Word :=
  BitVec.ofBool p.n ++ BitVec.ofBool p.z ++ BitVec.ofBool p.c ++ BitVec.ofBool p.v ++ 0#20 ++ BitVec.ofBool p.i
    ++ BitVec.ofBool p.f ++ BitVec.ofBool p.t ++ p.mode

/-- Write bits 31:28 of a status register (R431, R432). -/
def Psr.setFlagBits (p : Psr) (v : Word) : Psr :=
  { p with n := v.getLsbD 31, z := v.getLsbD 30, c := v.getLsbD 29, v := v.getLsbD 28 }

/-- Write bits 7:0 of a status register (R431, R432). -/
def Psr.setControlBits (p : Psr) (v : Word) : Psr :=
  { p with i := v.getLsbD 7, f := v.getLsbD 6, t := v.getLsbD 5, mode := v.extractLsb' 0 5 }

/-- The User mode number (R52). -/
abbrev modeUsr : BitVec 5 := 0b10000#5
/-- FIQ mode. -/
abbrev modeFiq : BitVec 5 := 0b10001#5
/-- IRQ mode. -/
abbrev modeIrq : BitVec 5 := 0b10010#5
/-- Supervisor mode. -/
abbrev modeSvc : BitVec 5 := 0b10011#5
/-- Abort mode. -/
abbrev modeAbt : BitVec 5 := 0b10111#5
/-- Undefined mode. -/
abbrev modeUnd : BitVec 5 := 0b11011#5
/-- System mode. -/
abbrev modeSys : BitVec 5 := 0b11111#5

/-- The seven legal values of the mode field (R52). -/
def legalMode (m : BitVec 5) : Bool :=
  m == modeUsr || m == modeFiq || m == modeIrq || m == modeSvc || m == modeAbt || m == modeUnd || m == modeSys

/-- ConditionPassed (R253, R356). -/
def condHolds : Cond → Psr → Bool
  | .eq, p => p.z
  | .ne, p => !p.z
  | .cs, p => p.c
  | .cc, p => !p.c
  | .mi, p => p.n
  | .pl, p => !p.n
  | .vs, p => p.v
  | .vc, p => !p.v
  | .hi, p => p.c && !p.z
  | .ls, p => !p.c || p.z
  | .ge, p => p.n == p.v
  | .lt, p => p.n != p.v
  | .gt, p => !p.z && p.n == p.v
  | .le, p => p.z || p.n != p.v
  | .al, _ => true

/-- The outcome of an addition: result, carry and overflow. -/
structure AddOut where
  /-- The sum modulo 2^32. -/
  res : Word
  /-- AddC. -/
  c : Bool
  /-- AddV. -/
  v : Bool
deriving DecidableEq, Repr

/-- `x + y + ci` with AddC and AddV (R26): the carry is bit 32 of the 33-bit sum; overflow is operands of one sign and
a result of the other. -/
def addWithCarry (x y : Word) (ci : Bool) : AddOut :=
  let sum : BitVec 33 := x.setWidth 33 + y.setWidth 33 + (BitVec.ofBool ci).setWidth 33
  let res : Word := sum.setWidth 32
  { res := res, c := sum.msb, v := x.msb == y.msb && res.msb != x.msb }

/-- `x - y` as `x + NOT y + 1` (R26). -/
def subtract (x y : Word) : AddOut := addWithCarry x (~~~y) true

/-- `x - y - (1 - c)` as `x + NOT y + c` (R26). -/
def subtractCarry (x y : Word) (c : Bool) : AddOut := addWithCarry x (~~~y) c

/-- N and Z from a result (R26). -/
def Psr.setNZ (p : Psr) (res : Word) : Psr := { p with n := res.msb, z := res == 0#32 }

/-- The flags of a logical operation with a shifter carry (R407). -/
def Psr.setLogical (p : Psr) (res : Word) (c : Bool) : Psr := { p.setNZ res with c := c }

/-- The flags of an arithmetic operation (R408). -/
def Psr.setArith (p : Psr) (o : AddOut) : Psr := { p.setNZ o.res with c := o.c, v := o.v }

/-- The flags of a multiply: N and Z from the 32-bit result, C a free value, V kept (R467, D51). -/
def Psr.setMul (p : Psr) (res : Word) (c : Bool) : Psr := { p.setNZ res with c := c }

/-- The flags of a long multiply: N and Z from the 64-bit result, C and V free values (R467, D51). -/
def Psr.setMulLong (p : Psr) (res : BitVec 64) (c v : Bool) : Psr :=
  { p with n := res.msb, z := res == 0#64, c := c, v := v }

end Sys2Proof.Machine
end

