-- ==== Sys2Proof/Machine/Operands.lean ====
section
/-! DEFINITION. The register view (10_state.md R57), r15 as an operand (40_execution_cycle.md R360), and every operand
form: the shifter of 41_arm_dataproc_psr.md R400-R405, the addressing of R508 and R525, the register lists of R544. -/

namespace Sys2Proof.Machine

/-! ### Registers -/

/-- The stored general register that mode m sees as register i, by its place in `Cpu.gpr` (R57). Modes without a bank
of their own see the User bank. r15 is not stored here; its value is never used. -/
def phys (m : BitVec 5) (i : RegNo) : Fin 30 :=
  if i.toNat < 8 then Fin.ofNat 30 i.toNat
  else if i.toNat < 13 then
    if m = modeFiq then Fin.ofNat 30 (i.toNat + 7) else Fin.ofNat 30 i.toNat
  else if m = modeFiq then Fin.ofNat 30 (i.toNat + 7)
  else if m = modeIrq then Fin.ofNat 30 (i.toNat + 9)
  else if m = modeSvc then Fin.ofNat 30 (i.toNat + 11)
  else if m = modeAbt then Fin.ofNat 30 (i.toNat + 13)
  else if m = modeUnd then Fin.ofNat 30 (i.toNat + 15)
  else Fin.ofNat 30 i.toNat

/-- The SPSR of a mode, by its place in `Cpu.spsr`; none in User and System mode (R52, R57). -/
def spsrIndex (m : BitVec 5) : Option (Fin 5) :=
  if m = modeFiq then some 0
  else if m = modeIrq then some 1
  else if m = modeSvc then some 2
  else if m = modeAbt then some 3
  else if m = modeUnd then some 4
  else none

/-- The stored register i of mode m. -/
def State.regOf (s : State) (m : BitVec 5) (i : RegNo) : Word := s.cpu.gpr.get (phys m i)

/-- Register i as an operand, r15 reading pc + ahead (R23, R360). -/
def State.reg (s : State) (ahead : Word) (i : RegNo) : Word :=
  if i = 15#4 then s.cpu.pc + ahead else s.regOf s.cpu.cpsr.mode i

/-- Write register i of mode m and mark it written (R91); r15 is written only through `State.setPc` (R59). -/
def State.setRegOf (m : BitVec 5) (i : RegNo) (v : Word) (s : State) : State :=
  if i = 15#4 then s
  else
    { s with cpu :=
      { s.cpu with
        gpr := s.cpu.gpr.set (phys m i).val v (phys m i).isLt
        written := s.cpu.written.set (phys m i).val true (phys m i).isLt } }

/-- Write register i through the current view (R57). -/
def State.setReg (i : RegNo) (v : Word) (s : State) : State := s.setRegOf s.cpu.cpsr.mode i v

/-- Write the program counter. -/
def State.setPc (a : Word) (s : State) : State := { s with cpu := { s.cpu with pc := a } }

/-- Write CPSR; the register view follows its mode field in the same step (R56). -/
def State.setCpsr (p : Psr) (s : State) : State := { s with cpu := { s.cpu with cpsr := p } }

/-- The SPSR of the current mode, if it has one (R57). -/
def State.spsr (s : State) : Option Psr := (spsrIndex s.cpu.cpsr.mode).map fun k => s.cpu.spsr.get k

/-- Write the SPSR of mode m and mark it written (R91, D78); a mode without one keeps the state. -/
def State.setSpsrOf (m : BitVec 5) (p : Psr) (s : State) : State :=
  match spsrIndex m with
  | some k =>
    { s with cpu :=
      { s.cpu with
        spsr := s.cpu.spsr.set k.val p k.isLt, spsrWritten := s.cpu.spsrWritten.set k.val true k.isLt } }
  | none => s

/-! ### The shifter -/

/-- A shifter result: operand and carry-out (R400). -/
structure Shifted where
  /-- shop. -/
  val : Word
  /-- shc. -/
  carry : Bool
deriving DecidableEq, Repr

/-- ASR of R22: 32 or more gives 32 copies of the sign. -/
def asr (v : Word) (n : Nat) : Word := v.sshiftRight n

/-- ROR of R22. -/
def ror (v : Word) (n : Nat) : Word := v.rotateRight (n % 32)

/-- A register shifted by a 5-bit immediate (R402); c is CPSR.C. -/
def shiftImm (ty : ShiftType) (n : BitVec 5) (v : Word) (c : Bool) : Shifted :=
  match ty with
  | .lsl => if n = 0#5 then ⟨v, c⟩ else ⟨v <<< n.toNat, v.getLsbD (32 - n.toNat)⟩
  | .lsr => if n = 0#5 then ⟨0#32, v.msb⟩ else ⟨v >>> n.toNat, v.getLsbD (n.toNat - 1)⟩
  | .asr => if n = 0#5 then ⟨asr v 32, v.msb⟩ else ⟨asr v n.toNat, v.getLsbD (n.toNat - 1)⟩
  | .ror =>
    if n = 0#5 then ⟨BitVec.ofBool c ++ v.extractLsb' 1 31, v.getLsbD 0⟩
    else ⟨ror v n.toNat, v.getLsbD (n.toNat - 1)⟩

/-- A register shifted by the low byte of a register (R403). -/
def shiftReg (ty : ShiftType) (n : Nat) (v : Word) (c : Bool) : Shifted :=
  if n = 0 then ⟨v, c⟩
  else match ty with
  | .lsl =>
    if n < 32 then ⟨v <<< n, v.getLsbD (32 - n)⟩ else if n = 32 then ⟨0#32, v.getLsbD 0⟩ else ⟨0#32, false⟩
  | .lsr =>
    if n < 32 then ⟨v >>> n, v.getLsbD (n - 1)⟩ else if n = 32 then ⟨0#32, v.msb⟩ else ⟨0#32, false⟩
  | .asr => if n < 32 then ⟨asr v n, v.getLsbD (n - 1)⟩ else ⟨asr v 32, v.msb⟩
  | .ror => if n % 32 = 0 then ⟨v, v.msb⟩ else ⟨ror v (n % 32), v.getLsbD (n % 32 - 1)⟩

/-- The value of a rotated immediate (R256). -/
def rotatedImm (rot : BitVec 4) (imm8 : BitVec 8) : Word := ror (imm8.setWidth 32) (2 * rot.toNat)

/-- The shift amount a register gives (R403): its low byte. -/
def shiftAmount (v : Word) : Nat := v.toNat % 256

/-- Shifter(w) (R400-R403): r15 as Rm reads pc + 8, or pc + 12 when a register gives the amount (R360). -/
def State.shifter (s : State) : Operand2 → Shifted
  | .imm rot imm8 =>
    ⟨rotatedImm rot imm8, if rot = 0#4 then s.cpu.cpsr.c else (rotatedImm rot imm8).msb⟩
  | .regImm amount ty rm => shiftImm ty amount (s.reg 8#32 rm) s.cpu.cpsr.c
  | .regReg rs ty rm => shiftReg ty (shiftAmount (s.reg 8#32 rs)) (s.reg 12#32 rm) s.cpu.cpsr.c

/-- Whether operand2 shifts by a register (R403). -/
def isRegShift : Operand2 → Bool
  | .regReg .. => true
  | _ => false

/-- Whether operand2 names r15 as the shift amount, which is unpredictable (R403). -/
def badShiftAmount : Operand2 → Bool
  | .regReg rs _ _ => rs == 15#4
  | _ => false

/-- What r15 as Rn of a data-processing instruction reads ahead of pc (R404). -/
def rnAhead (op2 : Operand2) : Word := if isRegShift op2 then 12#32 else 8#32

/-! ### Addressing -/

/-- The offset of a single data transfer (R508); the shift's carry is discarded. -/
def State.offset (s : State) : Offset → Word
  | .imm off => off.setWidth 32
  | .reg amount ty rm => (shiftImm ty amount (s.reg 8#32 rm) s.cpu.cpsr.c).val

/-- Whether an offset names r15, which is unpredictable (R509). -/
def badOffset : Offset → Bool
  | .reg _ _ rm => rm == 15#4
  | _ => false

/-- base plus or minus the offset (R508: ao). -/
def applyOffset (u : Bool) (base off : Word) : Word := if u then base + off else base - off

/-- The registers a list names, in ascending order (R267, R544). -/
def regList (list : BitVec 16) : List RegNo :=
  ((List.range 16).filter fun k => list.getLsbD k).map fun k => BitVec.ofNat 4 k

/-- The low registers a Thumb list names, in ascending order (R294, R295). -/
def lowList (list : BitVec 8) : List RegNo := regList (list.setWidth 16)

/-- 4n as an address step. -/
def fourTimes (n : Nat) : Word := BitVec.ofNat 32 (4 * n)

/-- The start address of a block transfer of n registers (R544). -/
def blockStart (p u : Bool) (base : Word) (n : Nat) : Word :=
  if u then (if p then base + 4#32 else base)
  else if p then base - fourTimes n else base - fourTimes n + 4#32

/-- The write-back value of a block transfer of n registers (R544). -/
def blockWriteBack (u : Bool) (base : Word) (n : Nat) : Word :=
  if u then base + fourTimes n else base - fourTimes n

/-! ### Sign extension -/

/-- sext_8 (R22). -/
def sext8 (v : Word) : Word := (v.setWidth 8).signExtend 32

/-- sext_16 (R22). -/
def sext16 (v : Word) : Word := (v.setWidth 16).signExtend 32

end Sys2Proof.Machine
end

