-- ==== Sys2Proof/Machine/Ops.lean ====
section
/-! DEFINITION. The operations the meanings share: CPU reads and writes of memory (20_memory.md R163, R170, R171), moving
the program counter (40_execution_cycle.md R61, R363), taking an exception and returning from one (60_exceptions.md
R830, 40_execution_cycle.md R365), and the shapes of the instruction classes. -/

namespace Sys2Proof.Machine

/-- The answer of a meaning. -/
abbrev Answer := Host.Outcome State Fault Refusal

/-- A meaning's answer from a result or a fault. -/
def answer : Except Fault State → Answer
  | .ok s => .next s
  | .error f => .fault f

/-- Fault(Unpredictable, pc, word) of an instruction (D4). -/
def State.unpredictable (s : State) (i : Instr) : Except Fault State :=
  .error (s.raise (.unpredictable s.cpu.pc (encode i).word))

/-- Fault(IllegalInstruction, pc, word) of an instruction (R368, R590). -/
def illegal (i : Instr) (s : State) : Answer := .fault (s.raise (.illegalInstruction s.cpu.pc (encode i).word))

/-! ### Memory -/

/-- rotate(raw, a, n) (R163). -/
def rotateRead (a : Word) (w : Width) (v : Word) : Word :=
  match w with
  | .byte => v
  | .half => if a.getLsbD 0 then ror v 8 else v
  | .word => ror v (8 * (a.toNat % 4))

/-- MemRead(a, n) (R170). -/
def State.memRead (a : Word) (w : Width) (seq : Bool) (s : State) : Word × State :=
  let r := (s.billAccess a w seq).readRaw .cpu (w.align a) w
  (rotateRead a w r.1, r.2)

/-- MemWrite(a, n, v) (R171), and the DMA the write starts (R891, R1209). -/
def State.memWrite (a : Word) (w : Width) (v : Word) (seq : Bool) (s : State) : Except Fault State := do
  let t ← s.busWrite s.storeWindow a w v seq
  t.drainDma s.storeWindow passLimit

/-- n words from an address on, each read at its aligned address without rotation (R173): the first access has the
given sequentiality, the rest are sequential (R544). -/
def State.loadWords : Nat → Word → Bool → State → List Word × State
  | 0, _, _, s => ([], s)
  | n + 1, a, seq, s =>
    let r := s.memRead (Width.word.align a) .word seq
    let rest := r.2.loadWords n (a + 4#32) true
    (r.1 :: rest.1, rest.2)

/-- Write words from an address on, each at its aligned address (R543). -/
def State.storeWords : List Word → Word → Bool → State → Except Fault State
  | [], _, _, s => .ok s
  | v :: vs, a, seq, s => do
    let t ← s.memWrite a .word v seq
    t.storeWords vs (a + 4#32) true

/-- Give registers of mode m values, in order; r15 is skipped (R540). -/
def State.assignRegs (m : BitVec 5) : List (RegNo × Word) → State → State
  | [], s => s
  | (i, v) :: rest, s => (s.setRegOf m i v).assignRegs m rest

/-! ### The program counter -/

/-- Advance past the executing instruction (R61). -/
def State.advance (s : State) : State := s.setPc (s.cpu.pc + codeStep s.cpu.cpsr.t)

/-- A value as a program counter of an encoding mode (R363). -/
def alignPc (thumb : Bool) (v : Word) : Word := if thumb then v &&& 0xFFFFFFFE#32 else v &&& 0xFFFFFFFC#32

/-- Write the program counter, aligned for the state after the write (R363). -/
def State.branchTo (v : Word) (s : State) : State := s.setPc (alignPc s.cpu.cpsr.t v)

/-- An ARM instruction whose condition fails (R357). -/
def State.skip (s : State) : State := (s.billCode true).advance

/-- Run the body of an ARM instruction if its condition passes (R356, R357). -/
def armCond (c : Cond) (s : State) (body : Except Fault State) : Answer :=
  if condHolds c s.cpu.cpsr then answer body else .next s.skip

/-! ### Exceptions -/

/-- ExceptionEntry(m, vector, ret) (R830), without its billing: SPSR_m saves CPSR, r14_m the return address; the mode
becomes m, ARM state, IRQs disabled; the program counter goes to the vector. -/
def State.enterException (m : BitVec 5) (vector ret : Word) (s : State) : State :=
  (((s.setCpsr { s.cpu.cpsr with mode := m, t := false, i := true }).setSpsrOf m s.cpu.cpsr).setReg 14#4 ret).setPc
    vector

/-- IRQ entry (R831) with its billing: S(A), N(0x18), S(0x1C) (R1201, log entry 18). S(A) has the width of the
interrupted state, a halfword in Thumb state: R1200 and R1201 give it none and R830 bills after T is cleared, so this is
the model's choice (log entry 18). -/
def State.enterIrq (s : State) : State :=
  ((s.billAccess s.cpu.pc (codeWidth s.cpu.cpsr.t) true).enterException modeIrq 0x18#32 (s.cpu.pc + 4#32)).billRefill
    4#32

/-- SWI (R580, R745): the exception entry to vector 0x08, returning past the instruction. -/
def State.softwareInterrupt (s : State) : State :=
  ((s.billCode true).enterException modeSvc 0x08#32 (s.cpu.pc + codeStep s.cpu.cpsr.t)).billRefill 4#32

/-- The status a return restores: the current mode's SPSR, if there is one and its mode is legal (R365). -/
def State.restorable (s : State) : Option Psr := s.spsr.filter fun p => legalMode p.mode

/-! ### Data processing -/

/-- Bill S(P), and an internal cycle for a register-specified shift (R1201). -/
def State.billDataProc (op2 : Operand2) (s : State) : State := (s.billCode true).bill (if isRegShift op2 then 1 else 0)

/-- Write N, Z, C, V from an ALU output if asked (R407, R408). -/
def State.setFlagsIf (b : Bool) (o : AddOut) (s : State) : State :=
  if b then s.setCpsr (s.cpu.cpsr.setArith o) else s

/-- The ALU output of a logical operation: C from the shifter, V kept (R405, R407). -/
def State.logical (s : State) (op2 : Operand2) (res : Word) : AddOut := ⟨res, (s.shifter op2).carry, s.cpu.cpsr.v⟩

/-- DataProcessing(w) of R409 for an operation that writes Rd, given its ALU output. -/
def State.writeResult (i : Instr) (setFlags : Bool) (rd : RegNo) (op2 : Operand2) (o : AddOut) (s : State) :
    Except Fault State :=
  if badShiftAmount op2 then s.unpredictable i
  else if rd = 15#4 then
    if setFlags then
      match s.restorable with
      | none => s.unpredictable i
      | some p => .ok ((((s.billDataProc op2).setCpsr p).branchTo o.res).billRefill 4#32)
    else .ok (((s.billDataProc op2).branchTo o.res).billRefill 4#32)
  else .ok ((((s.billDataProc op2).setReg rd o.res).setFlagsIf setFlags o).advance)

/-- DataProcessing(w) of R409 for TST, TEQ, CMP and CMN. -/
def State.testResult (i : Instr) (op2 : Operand2) (o : AddOut) (s : State) : Except Fault State :=
  if badShiftAmount op2 then s.unpredictable i
  else .ok (((s.billDataProc op2).setFlagsIf true o).advance)

/-! ### Multiply -/

/-- The multiplier cycle count m (R465); signed: all-ones upper parts count too. -/
def mulCycles (signed : Bool) (x : Word) : Nat :=
  if x.extractLsb' 8 24 = 0#24 ∨ (signed ∧ x.extractLsb' 8 24 = BitVec.allOnes 24) then 1
  else if x.extractLsb' 16 16 = 0#16 ∨ (signed ∧ x.extractLsb' 16 16 = BitVec.allOnes 16) then 2
  else if x.extractLsb' 24 8 = 0#8 ∨ (signed ∧ x.extractLsb' 24 8 = BitVec.allOnes 8) then 3
  else 4

/-- A free flag: the least bit of a draw (R467, D51). -/
def State.drawFlag (s : State) : Bool := s.draw.1.getLsbD 0

/-- The flags of a multiply if asked (R467). -/
def State.setMulFlagsIf (b : Bool) (res : Word) (s : State) : State :=
  if b then s.draw.2.setCpsr (s.cpu.cpsr.setMul res s.drawFlag) else s

/-- The flags of a long multiply if asked (R467). -/
def State.setMulLongFlagsIf (b : Bool) (res : BitVec 64) (s : State) : State :=
  if b then s.draw.2.draw.2.setCpsr (s.cpu.cpsr.setMulLong res s.drawFlag s.draw.2.drawFlag) else s

/-- Whether one of the registers is r15. -/
def anyPc (rs : List RegNo) : Bool := rs.contains 15#4

/-- The operands R466 forbids to MUL and MLA; others are the operands beside Rd and Rm. -/
def badMul (rd rm : RegNo) (others : List RegNo) : Bool := anyPc (rd :: others ++ [rm]) || rd == rm

/-- The operands R466 forbids to a long multiply. -/
def badLong (rdHi rdLo rs rm : RegNo) : Bool :=
  anyPc [rdHi, rdLo, rs, rm] || rdHi == rdLo || rdHi == rm || rdLo == rm

/-- A long multiply (R466, R475-R478): the 64-bit result to RdLo and RdHi. -/
def State.writeLong (i : Instr) (setFlags : Bool) (rdHi rdLo rs rm : RegNo) (cycles : Nat) (res : BitVec 64)
    (s : State) : Except Fault State :=
  if badLong rdHi rdLo rs rm then s.unpredictable i
  else
    .ok ((((((s.billCode true).bill cycles).setReg rdLo (res.extractLsb' 0 32)).setReg rdHi
      (res.extractLsb' 32 32)).setMulLongFlagsIf setFlags res).advance)

/-- {r[RdHi], r[RdLo]} (R476, R478). -/
def State.accumulator (s : State) (rdHi rdLo : RegNo) : BitVec 64 := s.reg 8#32 rdHi ++ s.reg 8#32 rdLo

/-! ### Loads and stores -/

/-- The addresses of a single transfer (R508, R525): the access, the write-back value and whether it writes back. -/
structure Access where
  /-- addr. -/
  addr : Word
  /-- ao. -/
  ao : Word
  /-- wb. -/
  wb : Bool
deriving DecidableEq, Repr

/-- The addressing of R508 and R525, given the offset's value. -/
def State.access (s : State) (p u w : Bool) (rn : RegNo) (off : Word) : Access :=
  let ao := applyOffset u (s.reg 8#32 rn) off
  { addr := if p then ao else s.reg 8#32 rn, ao := ao, wb := !p || w }

/-- Write back the base if the form does (R510). -/
def State.writeBack (x : Access) (rn : RegNo) (s : State) : State := if x.wb then s.setReg rn x.ao else s

/-- A load (R510): S(P), the access, an internal cycle, the write-back, the destination. `read` makes the access. -/
def State.loadReg (x : Access) (rn rd : RegNo) (read : Word → State → Word × State) (s : State) : State :=
  let r := read x.addr (s.billCode true)
  let t := (r.2.bill 1).writeBack x rn
  if rd = 15#4 then (t.branchTo r.1).billRefill 4#32 else (t.setReg rd r.1).advance

/-- A store (R510): N(P), the access, the write-back. -/
def State.storeReg (x : Access) (rn rd : RegNo) (w : Width) (s : State) : Except Fault State := do
  let t ← (s.billCode false).memWrite x.addr w (s.reg 12#32 rd) false
  return (t.writeBack x rn).advance

/-- The word read of LDR (R500). -/
def readWord (a : Word) (s : State) : Word × State := s.memRead a .word false

/-- The byte read of LDRB (R502). -/
def readByte (a : Word) (s : State) : Word × State := s.memRead a .byte false

/-- The halfword read of LDRH (R521). -/
def readHalf (a : Word) (s : State) : Word × State := s.memRead a .half false

/-- The signed byte read of LDRSB (R522). -/
def readSignedByte (a : Word) (s : State) : Word × State :=
  let r := s.memRead a .byte false
  (sext8 r.1, r.2)

/-- The signed halfword read of LDRSH; an odd address is a signed byte read (R523, D6). -/
def readSignedHalf (a : Word) (s : State) : Word × State :=
  if a.getLsbD 0 then readSignedByte a s
  else
    let r := s.memRead a .half false
    (sext16 r.1, r.2)

/-- The restrictions of the single loads (R509): `byte` for the forms that may not load r15. -/
def badLoad (x : Access) (rn rd : RegNo) (off : Offset) (byte : Bool) : Bool :=
  badOffset off || (x.wb && (rn == 15#4 || rn == rd)) || (byte && rd == 15#4)

/-- The restrictions of the single stores (R509). -/
def badStore (x : Access) (rn : RegNo) (off : Offset) : Bool := badOffset off || (x.wb && rn == 15#4)

/-- The restrictions of the halfword and signed transfers (R525); badRm: a register offset that is r15. -/
def badHalf (x : Access) (load p w : Bool) (rn rd : RegNo) (badRm : Bool) : Bool :=
  rd == 15#4 || badRm || (x.wb && rn == 15#4) || (load && x.wb && rn == rd) || (!p && w)

/-- A halfword immediate offset (R525). -/
def halfOffset (off : BitVec 8) : Word := off.setWidth 32

/-- A Thumb load of a low register (R670-R696): S(P), dN, I. -/
def State.loadLow (a : Word) (rd : LowReg) (read : Word → State → Word × State) (s : State) : State :=
  let r := read a (s.billCode true)
  ((r.2.bill 1).setReg rd.up r.1).advance

/-- A Thumb store of a low register (R675-R695): N(P), dN. -/
def State.storeLow (a : Word) (rd : LowReg) (w : Width) (s : State) : Except Fault State := do
  let t ← (s.billCode false).memWrite a w (s.reg 4#32 rd.up) false
  return t.advance

/-- The low register r. -/
def State.low (s : State) (r : LowReg) : Word := s.reg 4#32 r.up

/-! ### Block transfers -/

/-- The mode whose registers an LDM or STM moves (R541). -/
def State.blockMode (s : State) (user : Bool) : BitVec 5 := if user then modeUsr else s.cpu.cpsr.mode

/-- The restrictions of LDM (R545): those that need no register's value. -/
def State.badLdmForm (s : State) (sBit w : Bool) (rn : RegNo) (list : BitVec 16) : Bool :=
  list == 0#16 || rn == 15#4 || (sBit && !list.getLsbD 15 && w) || (w && list.getLsbD rn.toNat)
    || (sBit && s.spsr.isNone)

/-- The restrictions of LDM (R545), and the restore checks of R542. -/
def State.badLdm (s : State) (sBit w : Bool) (rn : RegNo) (list : BitVec 16) : Bool :=
  s.badLdmForm sBit w rn list || (sBit && list.getLsbD 15 && s.restorable.isNone)

/-- The restrictions of STM (R545): with write-back the base may be only the lowest listed register. -/
def State.badStm (s : State) (sBit w : Bool) (rn : RegNo) (list : BitVec 16) : Bool :=
  list == 0#16 || rn == 15#4 || (sBit && w)
    || (w && list.getLsbD rn.toNat && (regList list).head? != some rn) || (sBit && s.spsr.isNone)

/-- LDM after its checks (R540): the loads, the write-back, the registers, then r15 with the restore of R542. -/
def State.loadBlock (p u sBit w : Bool) (rn : RegNo) (list : BitVec 16) (s : State) : State :=
  let regs := regList list
  let base := s.reg 8#32 rn
  let r := (s.billCode true).loadWords regs.length (blockStart p u base regs.length) false
  let billed := r.2.bill 1
  let wb := if w then billed.setReg rn (blockWriteBack u base regs.length) else billed
  let t := wb.assignRegs (s.blockMode (sBit && !list.getLsbD 15)) (regs.zip r.1)
  if list.getLsbD 15 then
    let restored := if sBit then (match s.restorable with | some q => t.setCpsr q | none => t) else t
    let jumped := restored.branchTo (r.1.getLastD 0#32)
    jumped.billRefill (codeStep jumped.cpu.cpsr.t)
  else t.advance

/-- The value STM stores for a register (R543): the original base, the User bank's register, or the current view's. -/
def State.stmValue (s : State) (sBit : Bool) (rn i : RegNo) : Word :=
  if i = rn then s.reg 8#32 rn
  else if i = 15#4 then s.cpu.pc + 12#32
  else s.regOf (s.blockMode sBit) i

/-- STM after its checks (R543). -/
def State.storeBlock (p u sBit w : Bool) (rn : RegNo) (list : BitVec 16) (s : State) : Except Fault State := do
  let regs := regList list
  let base := s.reg 8#32 rn
  let t ← (s.billCode false).storeWords (regs.map (s.stmValue sBit rn)) (blockStart p u base regs.length) false
  return (if w then t.setReg rn (blockWriteBack u base regs.length) else t).advance

/-! ### Thumb arithmetic -/

/-- The end of a Thumb operation on a low register: S(P) and extra internal cycles, the result, the flags. -/
def State.finishLow (rd : LowReg) (res : Word) (p : Psr) (internal : Nat) (s : State) : State :=
  (((s.billCode true).bill internal).setReg rd.up res |>.setCpsr p).advance

/-- The end of a Thumb comparison: S(P), the flags. -/
def State.finishTest (p : Psr) (s : State) : State := ((s.billCode true).setCpsr p).advance

/-- The end of a Thumb shift: N, Z from the result and C from the shifter (R600-R602, R622-R627). -/
def State.finishShift (rd : LowReg) (r : Shifted) (internal : Nat) (s : State) : State :=
  s.finishLow rd r.val (s.cpu.cpsr.setLogical r.val r.carry) internal

/-- The end of a Thumb addition: all four flags. -/
def State.finishAdd (rd : LowReg) (o : AddOut) (s : State) : State := s.finishLow rd o.res (s.cpu.cpsr.setArith o) 0

/-- The end of a Thumb logical operation: N and Z (45_thumb_alu.md section 4). -/
def State.finishLogical (rd : LowReg) (res : Word) (s : State) : State := s.finishLow rd res (s.cpu.cpsr.setNZ res) 0

/-- A branch of either state (R1201): S(P), the target, the refill. -/
def State.branch (target : Word) (s : State) : State :=
  let t := (s.billCode true).branchTo target
  t.billRefill (codeStep t.cpu.cpsr.t)

/-- BX to an address (R575, R735): bit 0 selects the state; an ARM target with bit 1 set is unpredictable (D76). -/
def State.exchange (i : Instr) (target : Word) (s : State) : Except Fault State :=
  if target.getLsbD 0 then
    .ok ((((s.billCode true).setCpsr { s.cpu.cpsr with t := true }).branchTo target).billRefill 2#32)
  else if target.getLsbD 1 then s.unpredictable i
  else .ok ((((s.billCode true).setCpsr { s.cpu.cpsr with t := false }).branchTo target).billRefill 4#32)

end Sys2Proof.Machine
end

