-- ==== Sys2Proof/Machine/ArmBranch.lean ====
section
/-! DEFINITION. ARM branches, SWI and the illegal space (44_arm_branch_swi.md). -/

namespace Sys2Proof.Machine

/-- The target of B and BL (R570): pc + 8 plus the signed word offset. -/
def armTarget (pc : Word) (off : BitVec 24) : Word := pc + 8#32 + (off.signExtend 32 <<< 2)

/-- B (R570). -/
def execB (c : Cond) (off : BitVec 24) (st : State) : Answer := armCond c st (.ok (st.branch (armTarget st.cpu.pc off)))

/-- BL (R571). -/
def execBl (c : Cond) (off : BitVec 24) (st : State) : Answer :=
  armCond c st (.ok ((st.setReg 14#4 (st.cpu.pc + 4#32)).branch (armTarget st.cpu.pc off)))

/-- BX (R575). -/
def execBx (c : Cond) (rm : RegNo) (st : State) : Answer := armCond c st (st.exchange (.bx c rm) (st.reg 8#32 rm))

/-- SWI (R580); the comment field is ignored. -/
def execSwi (c : Cond) (_comment : BitVec 24) (st : State) : Answer := armCond c st (.ok st.softwareInterrupt)

/-- The undefined-instruction space (R266 (a), R590), whatever the condition. -/
def execUndefinedArm (c : Cond) (hi : BitVec 20) (lo : BitVec 4) (st : State) : Answer :=
  illegal (.undefinedArm c hi lo) st

/-- LDC and STC (R269, R590), whatever the condition. -/
def execLdcStc (c : Cond) (rest : BitVec 25) (st : State) : Answer := illegal (.ldcStc c rest) st

/-- CDP (R269, R590), whatever the condition. -/
def execCdp (c : Cond) (hi : BitVec 19) (lo : BitVec 4) (st : State) : Answer := illegal (.cdp c hi lo) st

/-- MCR and MRC (R269, R590), whatever the condition. -/
def execMcrMrc (c : Cond) (hi : BitVec 19) (lo : BitVec 4) (st : State) : Answer := illegal (.mcrMrc c hi lo) st

end Sys2Proof.Machine
end

