-- ==== Sys2Proof/Machine/ArmDataProc.lean ====
section
/-! DEFINITION. The sixteen ARM data-processing operations (41_arm_dataproc_psr.md R409-R425). -/

namespace Sys2Proof.Machine

/-- AND (R410). -/
def execAnd (c : Cond) (s : Bool) (rn rd : RegNo) (op2 : Operand2) (st : State) : Answer :=
  armCond c st (st.writeResult (.and c s rn rd op2) s rd op2
    (st.logical op2 ((st.reg (rnAhead op2) rn) &&& (st.shifter op2).val)))

/-- EOR (R411). -/
def execEor (c : Cond) (s : Bool) (rn rd : RegNo) (op2 : Operand2) (st : State) : Answer :=
  armCond c st (st.writeResult (.eor c s rn rd op2) s rd op2
    (st.logical op2 ((st.reg (rnAhead op2) rn) ^^^ (st.shifter op2).val)))

/-- SUB (R412). -/
def execSub (c : Cond) (s : Bool) (rn rd : RegNo) (op2 : Operand2) (st : State) : Answer :=
  armCond c st (st.writeResult (.sub c s rn rd op2) s rd op2
    (subtract (st.reg (rnAhead op2) rn) (st.shifter op2).val))

/-- RSB (R413). -/
def execRsb (c : Cond) (s : Bool) (rn rd : RegNo) (op2 : Operand2) (st : State) : Answer :=
  armCond c st (st.writeResult (.rsb c s rn rd op2) s rd op2
    (subtract (st.shifter op2).val (st.reg (rnAhead op2) rn)))

/-- ADD (R414). -/
def execAdd (c : Cond) (s : Bool) (rn rd : RegNo) (op2 : Operand2) (st : State) : Answer :=
  armCond c st (st.writeResult (.add c s rn rd op2) s rd op2
    (addWithCarry (st.reg (rnAhead op2) rn) (st.shifter op2).val false))

/-- ADC (R415). -/
def execAdc (c : Cond) (s : Bool) (rn rd : RegNo) (op2 : Operand2) (st : State) : Answer :=
  armCond c st (st.writeResult (.adc c s rn rd op2) s rd op2
    (addWithCarry (st.reg (rnAhead op2) rn) (st.shifter op2).val st.cpu.cpsr.c))

/-- SBC (R416). -/
def execSbc (c : Cond) (s : Bool) (rn rd : RegNo) (op2 : Operand2) (st : State) : Answer :=
  armCond c st (st.writeResult (.sbc c s rn rd op2) s rd op2
    (subtractCarry (st.reg (rnAhead op2) rn) (st.shifter op2).val st.cpu.cpsr.c))

/-- RSC (R417). -/
def execRsc (c : Cond) (s : Bool) (rn rd : RegNo) (op2 : Operand2) (st : State) : Answer :=
  armCond c st (st.writeResult (.rsc c s rn rd op2) s rd op2
    (subtractCarry (st.shifter op2).val (st.reg (rnAhead op2) rn) st.cpu.cpsr.c))

/-- TST (R418). -/
def execTst (c : Cond) (rn ignored : RegNo) (op2 : Operand2) (st : State) : Answer :=
  armCond c st (st.testResult (.tst c rn ignored op2) op2
    (st.logical op2 ((st.reg (rnAhead op2) rn) &&& (st.shifter op2).val)))

/-- TEQ (R419). -/
def execTeq (c : Cond) (rn ignored : RegNo) (op2 : Operand2) (st : State) : Answer :=
  armCond c st (st.testResult (.teq c rn ignored op2) op2
    (st.logical op2 ((st.reg (rnAhead op2) rn) ^^^ (st.shifter op2).val)))

/-- CMP (R420). -/
def execCmp (c : Cond) (rn ignored : RegNo) (op2 : Operand2) (st : State) : Answer :=
  armCond c st (st.testResult (.cmp c rn ignored op2) op2
    (subtract (st.reg (rnAhead op2) rn) (st.shifter op2).val))

/-- CMN (R421). -/
def execCmn (c : Cond) (rn ignored : RegNo) (op2 : Operand2) (st : State) : Answer :=
  armCond c st (st.testResult (.cmn c rn ignored op2) op2
    (addWithCarry (st.reg (rnAhead op2) rn) (st.shifter op2).val false))

/-- ORR (R422). -/
def execOrr (c : Cond) (s : Bool) (rn rd : RegNo) (op2 : Operand2) (st : State) : Answer :=
  armCond c st (st.writeResult (.orr c s rn rd op2) s rd op2
    (st.logical op2 ((st.reg (rnAhead op2) rn) ||| (st.shifter op2).val)))

/-- MOV (R423); Rn is not read. -/
def execMov (c : Cond) (s : Bool) (ignored rd : RegNo) (op2 : Operand2) (st : State) : Answer :=
  armCond c st (st.writeResult (.mov c s ignored rd op2) s rd op2 (st.logical op2 ((st.shifter op2).val)))

/-- BIC (R424). -/
def execBic (c : Cond) (s : Bool) (rn rd : RegNo) (op2 : Operand2) (st : State) : Answer :=
  armCond c st (st.writeResult (.bic c s rn rd op2) s rd op2
    (st.logical op2 ((st.reg (rnAhead op2) rn) &&& ~~~(st.shifter op2).val)))

/-- MVN (R425); Rn is not read. -/
def execMvn (c : Cond) (s : Bool) (ignored rd : RegNo) (op2 : Operand2) (st : State) : Answer :=
  armCond c st (st.writeResult (.mvn c s ignored rd op2) s rd op2 (st.logical op2 (~~~(st.shifter op2).val)))

end Sys2Proof.Machine
end

