-- ==== Sys2Proof/Machine/ArmLoadStore.lean ====
section
/-! DEFINITION. ARM loads, stores, block transfers and swap (43_arm_loadstore.md). -/

namespace Sys2Proof.Machine

/-- A single load after its checks (R509, R510). -/
def State.single (i : Instr) (x : Access) (rn rd : RegNo) (off : Offset) (byte : Bool)
    (read : Word → State → Word × State) (s : State) : Except Fault State :=
  if badLoad x rn rd off byte then s.unpredictable i else .ok (s.loadReg x rn rd read)

/-- A single store after its checks (R509, R510). -/
def State.singleStore (i : Instr) (x : Access) (rn rd : RegNo) (off : Offset) (w : Width) (s : State) :
    Except Fault State :=
  if badStore x rn off then s.unpredictable i else s.storeReg x rn rd w

/-- A halfword or signed load after its checks (R525). -/
def State.half (i : Instr) (x : Access) (p w : Bool) (rn rd : RegNo) (badRm : Bool)
    (read : Word → State → Word × State) (s : State) : Except Fault State :=
  if badHalf x true p w rn rd badRm then s.unpredictable i else .ok (s.loadReg x rn rd read)

/-- A halfword store after its checks (R525). -/
def State.halfStore (i : Instr) (x : Access) (p w : Bool) (rn rd : RegNo) (badRm : Bool) (s : State) :
    Except Fault State :=
  if badHalf x false p w rn rd badRm then s.unpredictable i else s.storeReg x rn rd .half

/-- LDR (R500). -/
def execLdr (c : Cond) (p u w : Bool) (rn rd : RegNo) (off : Offset) (st : State) : Answer :=
  armCond c st (st.single (.ldr c p u w rn rd off) (st.access p u w rn (st.offset off)) rn rd off false readWord)

/-- LDRB (R502). -/
def execLdrb (c : Cond) (p u w : Bool) (rn rd : RegNo) (off : Offset) (st : State) : Answer :=
  armCond c st (st.single (.ldrb c p u w rn rd off) (st.access p u w rn (st.offset off)) rn rd off true readByte)

/-- STR (R501). -/
def execStr (c : Cond) (p u w : Bool) (rn rd : RegNo) (off : Offset) (st : State) : Answer :=
  armCond c st (st.singleStore (.str c p u w rn rd off) (st.access p u w rn (st.offset off)) rn rd off .word)

/-- STRB (R503). -/
def execStrb (c : Cond) (p u w : Bool) (rn rd : RegNo) (off : Offset) (st : State) : Answer :=
  armCond c st (st.singleStore (.strb c p u w rn rd off) (st.access p u w rn (st.offset off)) rn rd off .byte)

/-- LDRT, a post-indexed load (D53) (R504). -/
def execLdrt (c : Cond) (u : Bool) (rn rd : RegNo) (off : Offset) (st : State) : Answer :=
  armCond c st (st.single (.ldrt c u rn rd off) (st.access false u true rn (st.offset off)) rn rd off false readWord)

/-- LDRBT, a post-indexed load (D53) (R506). -/
def execLdrbt (c : Cond) (u : Bool) (rn rd : RegNo) (off : Offset) (st : State) : Answer :=
  armCond c st (st.single (.ldrbt c u rn rd off) (st.access false u true rn (st.offset off)) rn rd off true readByte)

/-- STRT, a post-indexed store (D53) (R505). -/
def execStrt (c : Cond) (u : Bool) (rn rd : RegNo) (off : Offset) (st : State) : Answer :=
  armCond c st (st.singleStore (.strt c u rn rd off) (st.access false u true rn (st.offset off)) rn rd off .word)

/-- STRBT, a post-indexed store (D53) (R507). -/
def execStrbt (c : Cond) (u : Bool) (rn rd : RegNo) (off : Offset) (st : State) : Answer :=
  armCond c st (st.singleStore (.strbt c u rn rd off) (st.access false u true rn (st.offset off)) rn rd off .byte)

/-- LDRH, register offset (R521). -/
def execLdrhReg (c : Cond) (p u w : Bool) (rn rd rm : RegNo) (st : State) : Answer :=
  armCond c st (st.half (.ldrhReg c p u w rn rd rm) (st.access p u w rn (st.reg 8#32 rm)) p w rn rd (rm == 15#4)
    readHalf)

/-- LDRH, immediate offset (R521). -/
def execLdrhImm (c : Cond) (p u w : Bool) (rn rd : RegNo) (off : BitVec 8) (st : State) : Answer :=
  armCond c st (st.half (.ldrhImm c p u w rn rd off) (st.access p u w rn (halfOffset off)) p w rn rd false readHalf)

/-- LDRSB, register offset (R522). -/
def execLdrsbReg (c : Cond) (p u w : Bool) (rn rd rm : RegNo) (st : State) : Answer :=
  armCond c st (st.half (.ldrsbReg c p u w rn rd rm) (st.access p u w rn (st.reg 8#32 rm)) p w rn rd (rm == 15#4)
    readSignedByte)

/-- LDRSB, immediate offset (R522). -/
def execLdrsbImm (c : Cond) (p u w : Bool) (rn rd : RegNo) (off : BitVec 8) (st : State) : Answer :=
  armCond c st (st.half (.ldrsbImm c p u w rn rd off) (st.access p u w rn (halfOffset off)) p w rn rd false readSignedByte)

/-- LDRSH, register offset (R523). -/
def execLdrshReg (c : Cond) (p u w : Bool) (rn rd rm : RegNo) (st : State) : Answer :=
  armCond c st (st.half (.ldrshReg c p u w rn rd rm) (st.access p u w rn (st.reg 8#32 rm)) p w rn rd (rm == 15#4)
    readSignedHalf)

/-- LDRSH, immediate offset (R523). -/
def execLdrshImm (c : Cond) (p u w : Bool) (rn rd : RegNo) (off : BitVec 8) (st : State) : Answer :=
  armCond c st (st.half (.ldrshImm c p u w rn rd off) (st.access p u w rn (halfOffset off)) p w rn rd false readSignedHalf)

/-- STRH, register offset (R520). -/
def execStrhReg (c : Cond) (p u w : Bool) (rn rd rm : RegNo) (st : State) : Answer :=
  armCond c st (st.halfStore (.strhReg c p u w rn rd rm) (st.access p u w rn (st.reg 8#32 rm)) p w rn rd (rm == 15#4))

/-- STRH, immediate offset (R520). -/
def execStrhImm (c : Cond) (p u w : Bool) (rn rd : RegNo) (off : BitVec 8) (st : State) : Answer :=
  armCond c st (st.halfStore (.strhImm c p u w rn rd off) (st.access p u w rn (halfOffset off)) p w rn rd false)

/-- The restrictions of SWP and SWPB (R562). -/
def badSwap (rn rd rm : RegNo) : Bool := anyPc [rd, rm, rn] || rn == rd || rn == rm

/-- SWP and SWPB (R560, R561): S(P), the read, the write, an internal cycle, then Rd. -/
def State.swap (i : Instr) (rn rd rm : RegNo) (w : Width) (s : State) : Except Fault State :=
  if badSwap rn rd rm then s.unpredictable i
  else do
    let r := (s.billCode true).memRead (s.reg 8#32 rn) w false
    let t ← r.2.memWrite (s.reg 8#32 rn) w (s.reg 8#32 rm) false
    return ((t.bill 1).setReg rd r.1).advance

/-- SWP (R560). -/
def execSwp (c : Cond) (rn rd rm : RegNo) (st : State) : Answer :=
  armCond c st (st.swap (.swp c rn rd rm) rn rd rm .word)

/-- SWPB (R561). -/
def execSwpb (c : Cond) (rn rd rm : RegNo) (st : State) : Answer :=
  armCond c st (st.swap (.swpb c rn rd rm) rn rd rm .byte)

/-- LDM (R540-R542). -/
def execLdm (c : Cond) (p u s w : Bool) (rn : RegNo) (list : BitVec 16) (st : State) : Answer :=
  armCond c st
    (if st.badLdm s w rn list then st.unpredictable (.ldm c p u s w rn list) else .ok (st.loadBlock p u s w rn list))

/-- STM (R541, R543). -/
def execStm (c : Cond) (p u s w : Bool) (rn : RegNo) (list : BitVec 16) (st : State) : Answer :=
  armCond c st
    (if st.badStm s w rn list then st.unpredictable (.stm c p u s w rn list) else st.storeBlock p u s w rn list)

end Sys2Proof.Machine
end

