-- ==== Sys2Proof/Machine/ArmMultiply.lean ====
section
/-! DEFINITION. The ARM multiplies (42_arm_multiply.md R465-R478). -/

namespace Sys2Proof.Machine

/-- MUL and MLA after their operand checks (R466, R467, R470, R471): S(P), the internal cycles, Rd, the flags. -/
def State.writeMul (i : Instr) (bad setFlags : Bool) (rd : RegNo) (cycles : Nat) (res : Word) (s : State) :
    Except Fault State :=
  if bad then s.unpredictable i
  else .ok (((((s.billCode true).bill cycles).setReg rd res).setMulFlagsIf setFlags res).advance)

/-- MUL (R470); the bits 15:12 are ignored (D73). -/
def execMul (c : Cond) (s : Bool) (rd ignored rs rm : RegNo) (st : State) : Answer :=
  armCond c st (st.writeMul (.mul c s rd ignored rs rm) (badMul rd rm [rs]) s rd
    (mulCycles true (st.reg 8#32 rs)) (st.reg 8#32 rm * st.reg 8#32 rs))

/-- MLA (R471). -/
def execMla (c : Cond) (s : Bool) (rd rn rs rm : RegNo) (st : State) : Answer :=
  armCond c st (st.writeMul (.mla c s rd rn rs rm) (badMul rd rm [rn, rs]) s rd
    (mulCycles true (st.reg 8#32 rs) + 1) (st.reg 8#32 rm * st.reg 8#32 rs + st.reg 8#32 rn))

/-- UMULL (R475). -/
def execUmull (c : Cond) (s : Bool) (rdHi rdLo rs rm : RegNo) (st : State) : Answer :=
  armCond c st (st.writeLong (.umull c s rdHi rdLo rs rm) s rdHi rdLo rs rm (mulCycles false (st.reg 8#32 rs) + 1)
    ((st.reg 8#32 rm).setWidth 64 * (st.reg 8#32 rs).setWidth 64))

/-- UMLAL (R476). -/
def execUmlal (c : Cond) (s : Bool) (rdHi rdLo rs rm : RegNo) (st : State) : Answer :=
  armCond c st (st.writeLong (.umlal c s rdHi rdLo rs rm) s rdHi rdLo rs rm (mulCycles false (st.reg 8#32 rs) + 2)
    ((st.reg 8#32 rm).setWidth 64 * (st.reg 8#32 rs).setWidth 64 + st.accumulator rdHi rdLo))

/-- SMULL (R477). -/
def execSmull (c : Cond) (s : Bool) (rdHi rdLo rs rm : RegNo) (st : State) : Answer :=
  armCond c st (st.writeLong (.smull c s rdHi rdLo rs rm) s rdHi rdLo rs rm (mulCycles true (st.reg 8#32 rs) + 1)
    ((st.reg 8#32 rm).signExtend 64 * (st.reg 8#32 rs).signExtend 64))

/-- SMLAL (R478). -/
def execSmlal (c : Cond) (s : Bool) (rdHi rdLo rs rm : RegNo) (st : State) : Answer :=
  armCond c st (st.writeLong (.smlal c s rdHi rdLo rs rm) s rdHi rdLo rs rm (mulCycles true (st.reg 8#32 rs) + 2)
    ((st.reg 8#32 rm).signExtend 64 * (st.reg 8#32 rs).signExtend 64 + st.accumulator rdHi rdLo))

end Sys2Proof.Machine
end

