-- ==== Sys2Proof/Machine/ArmPsr.lean ====
section
/-! DEFINITION. Status-register transfer (41_arm_dataproc_psr.md R430-R432). -/

namespace Sys2Proof.Machine

/-- The PSR operand of MSR: a rotated immediate (R431). -/
def msrImm (rot : BitVec 4) (imm8 : BitVec 8) : Word := rotatedImm rot imm8

/-- The value MSR writes to a status register: the flag field, and the control field if allowed (R431, R432). -/
def msrValue (mask : BitVec 4) (control : Bool) (v : Word) (p : Psr) : Psr :=
  let q := if mask.getLsbD 3 then p.setFlagBits v else p
  if mask.getLsbD 0 && control then q.setControlBits v else q

/-- MSR to CPSR (R431): in User mode the control field is left (D50); a privileged control write must keep T and name
a legal mode. -/
def State.msrCpsr (i : Instr) (mask : BitVec 4) (v : Word) (s : State) : Except Fault State :=
  let control := s.cpu.cpsr.mode != modeUsr
  if mask.getLsbD 0 && control && (!legalMode (v.extractLsb' 0 5) || v.getLsbD 5 != s.cpu.cpsr.t) then s.unpredictable i
  else .ok (((s.billCode true).setCpsr (msrValue mask control v s.cpu.cpsr)).advance)

/-- MSR to the current mode's SPSR (R432). -/
def State.msrSpsr (i : Instr) (mask : BitVec 4) (v : Word) (s : State) : Except Fault State :=
  match s.spsr with
  | none => s.unpredictable i
  | some p => .ok (((s.billCode true).setSpsrOf s.cpu.cpsr.mode (msrValue mask true v p)).advance)

/-- MRS of a status register (R430). -/
def State.moveFromPsr (i : Instr) (rd : RegNo) (p : Option Psr) (s : State) : Except Fault State :=
  if rd = 15#4 then s.unpredictable i
  else match p with
  | none => s.unpredictable i
  | some q => .ok (((s.billCode true).setReg rd q.toWord).advance)

/-- MRS (R430). -/
def execMrs (c : Cond) (r : Bool) (rd : RegNo) (st : State) : Answer :=
  armCond c st (st.moveFromPsr (.mrs c r rd) rd (if r then st.spsr else some st.cpu.cpsr))

/-- MSR CPSR, register form (R431). -/
def execMsrCpsrReg (c : Cond) (mask : BitVec 4) (rm : RegNo) (st : State) : Answer :=
  armCond c st
    (if rm = 15#4 then st.unpredictable (.msrCpsrReg c mask rm)
      else st.msrCpsr (.msrCpsrReg c mask rm) mask (st.reg 8#32 rm))

/-- MSR CPSR, immediate form (R431). -/
def execMsrCpsrImm (c : Cond) (mask rot : BitVec 4) (imm8 : BitVec 8) (st : State) : Answer :=
  armCond c st (st.msrCpsr (.msrCpsrImm c mask rot imm8) mask (msrImm rot imm8))

/-- MSR SPSR, register form (R432). -/
def execMsrSpsrReg (c : Cond) (mask : BitVec 4) (rm : RegNo) (st : State) : Answer :=
  armCond c st
    (if rm = 15#4 then st.unpredictable (.msrSpsrReg c mask rm)
      else st.msrSpsr (.msrSpsrReg c mask rm) mask (st.reg 8#32 rm))

/-- MSR SPSR, immediate form (R432). -/
def execMsrSpsrImm (c : Cond) (mask rot : BitVec 4) (imm8 : BitVec 8) (st : State) : Answer :=
  armCond c st (st.msrSpsr (.msrSpsrImm c mask rot imm8) mask (msrImm rot imm8))

end Sys2Proof.Machine
end

