-- ==== Sys2Proof/Machine/ThumbAlu.lean ====
section
/-! DEFINITION. Thumb arithmetic, logic and address formats 1-5, 12 and 13 (45_thumb_alu.md). -/

namespace Sys2Proof.Machine

/-- LSL Rd, Rs, #offset5 (R600). -/
def execTLslImm (off : BitVec 5) (rs rd : LowReg) (st : State) : Answer :=
  .next (st.finishShift rd (shiftImm .lsl off (st.low rs) st.cpu.cpsr.c) 0)

/-- LSR Rd, Rs, #offset5 (R601). -/
def execTLsrImm (off : BitVec 5) (rs rd : LowReg) (st : State) : Answer :=
  .next (st.finishShift rd (shiftImm .lsr off (st.low rs) st.cpu.cpsr.c) 0)

/-- ASR Rd, Rs, #offset5 (R602). -/
def execTAsrImm (off : BitVec 5) (rs rd : LowReg) (st : State) : Answer :=
  .next (st.finishShift rd (shiftImm .asr off (st.low rs) st.cpu.cpsr.c) 0)

/-- ADD Rd, Rs, Rn (R605). -/
def execTAddReg (rn rs rd : LowReg) (st : State) : Answer :=
  .next (st.finishAdd rd (addWithCarry (st.low rs) (st.low rn) false))

/-- SUB Rd, Rs, Rn (R607). -/
def execTSubReg (rn rs rd : LowReg) (st : State) : Answer := .next (st.finishAdd rd (subtract (st.low rs) (st.low rn)))

/-- ADD Rd, Rs, #imm3 (R606). -/
def execTAddImm3 (imm3 : BitVec 3) (rs rd : LowReg) (st : State) : Answer :=
  .next (st.finishAdd rd (addWithCarry (st.low rs) (imm3.setWidth 32) false))

/-- SUB Rd, Rs, #imm3 (R608). -/
def execTSubImm3 (imm3 : BitVec 3) (rs rd : LowReg) (st : State) : Answer :=
  .next (st.finishAdd rd (subtract (st.low rs) (imm3.setWidth 32)))

/-- MOV Rd, #imm8 (R610). -/
def execTMovImm8 (rd : LowReg) (imm8 : BitVec 8) (st : State) : Answer := .next (st.finishLogical rd (imm8.setWidth 32))

/-- CMP Rd, #imm8 (R611). -/
def execTCmpImm8 (rd : LowReg) (imm8 : BitVec 8) (st : State) : Answer :=
  .next (st.finishTest (st.cpu.cpsr.setArith (subtract (st.low rd) (imm8.setWidth 32))))

/-- ADD Rd, #imm8 (R612). -/
def execTAddImm8 (rd : LowReg) (imm8 : BitVec 8) (st : State) : Answer :=
  .next (st.finishAdd rd (addWithCarry (st.low rd) (imm8.setWidth 32) false))

/-- SUB Rd, #imm8 (R613). -/
def execTSubImm8 (rd : LowReg) (imm8 : BitVec 8) (st : State) : Answer :=
  .next (st.finishAdd rd (subtract (st.low rd) (imm8.setWidth 32)))

/-- AND Rd, Rs (R620). -/
def execTAnd (rs rd : LowReg) (st : State) : Answer := .next (st.finishLogical rd (st.low rd &&& st.low rs))

/-- EOR Rd, Rs (R621). -/
def execTEor (rs rd : LowReg) (st : State) : Answer := .next (st.finishLogical rd (st.low rd ^^^ st.low rs))

/-- LSL Rd, Rs (R622). -/
def execTLslReg (rs rd : LowReg) (st : State) : Answer :=
  .next (st.finishShift rd (shiftReg .lsl (shiftAmount (st.low rs)) (st.low rd) st.cpu.cpsr.c) 1)

/-- LSR Rd, Rs (R623). -/
def execTLsrReg (rs rd : LowReg) (st : State) : Answer :=
  .next (st.finishShift rd (shiftReg .lsr (shiftAmount (st.low rs)) (st.low rd) st.cpu.cpsr.c) 1)

/-- ASR Rd, Rs (R624). -/
def execTAsrReg (rs rd : LowReg) (st : State) : Answer :=
  .next (st.finishShift rd (shiftReg .asr (shiftAmount (st.low rs)) (st.low rd) st.cpu.cpsr.c) 1)

/-- ADC Rd, Rs (R625). -/
def execTAdc (rs rd : LowReg) (st : State) : Answer :=
  .next (st.finishAdd rd (addWithCarry (st.low rd) (st.low rs) st.cpu.cpsr.c))

/-- SBC Rd, Rs (R626). -/
def execTSbc (rs rd : LowReg) (st : State) : Answer :=
  .next (st.finishAdd rd (subtractCarry (st.low rd) (st.low rs) st.cpu.cpsr.c))

/-- ROR Rd, Rs (R627). -/
def execTRorReg (rs rd : LowReg) (st : State) : Answer :=
  .next (st.finishShift rd (shiftReg .ror (shiftAmount (st.low rs)) (st.low rd) st.cpu.cpsr.c) 1)

/-- TST Rd, Rs (R628). -/
def execTTst (rs rd : LowReg) (st : State) : Answer :=
  .next (st.finishTest (st.cpu.cpsr.setNZ (st.low rd &&& st.low rs)))

/-- NEG Rd, Rs (R629). -/
def execTNeg (rs rd : LowReg) (st : State) : Answer := .next (st.finishAdd rd (subtract 0#32 (st.low rs)))

/-- CMP Rd, Rs (R630). -/
def execTCmpReg (rs rd : LowReg) (st : State) : Answer :=
  .next (st.finishTest (st.cpu.cpsr.setArith (subtract (st.low rd) (st.low rs))))

/-- CMN Rd, Rs (R631). -/
def execTCmn (rs rd : LowReg) (st : State) : Answer :=
  .next (st.finishTest (st.cpu.cpsr.setArith (addWithCarry (st.low rd) (st.low rs) false)))

/-- ORR Rd, Rs (R632). -/
def execTOrr (rs rd : LowReg) (st : State) : Answer := .next (st.finishLogical rd (st.low rd ||| st.low rs))

/-- MUL Rd, Rs (R633): Rd = Rs is unpredictable (D75); the cycles are those of the original Rd; C is free (D51). -/
def execTMul (rs rd : LowReg) (st : State) : Answer :=
  answer
    (if rs = rd then st.unpredictable (.tMul rs rd)
      else .ok (((((st.billCode true).bill (mulCycles true (st.low rd))).setReg rd.up (st.low rs * st.low rd)).setMulFlagsIf
        true (st.low rs * st.low rd)).advance))

/-- BIC Rd, Rs (R634). -/
def execTBic (rs rd : LowReg) (st : State) : Answer := .next (st.finishLogical rd (st.low rd &&& ~~~st.low rs))

/-- MVN Rd, Rs (R635). -/
def execTMvn (rs rd : LowReg) (st : State) : Answer := .next (st.finishLogical rd (~~~st.low rs))

/-- Whether both registers of a format 5 operation are low, which is unpredictable (D74). -/
def bothLow (rs rd : RegNo) : Bool := !rs.getLsbD 3 && !rd.getLsbD 3

/-- The end of a format 5 ADD or MOV (R640, R642): r15 is a branch, another register a result without flags. -/
def State.finishHi (rd : RegNo) (v : Word) (s : State) : State :=
  if rd = 15#4 then s.branch v else ((s.billCode true).setReg rd v).advance

/-- ADD Rd, Rs with high registers (R640). -/
def execTAddHi (rs rd : RegNo) (st : State) : Answer :=
  answer
    (if bothLow rs rd then st.unpredictable (.tAddHi rs rd)
      else .ok (st.finishHi rd (st.reg 4#32 rd + st.reg 4#32 rs)))

/-- CMP Rd, Rs with high registers (R641). -/
def execTCmpHi (rs rd : RegNo) (st : State) : Answer :=
  answer
    (if bothLow rs rd then st.unpredictable (.tCmpHi rs rd)
      else .ok (st.finishTest (st.cpu.cpsr.setArith (subtract (st.reg 4#32 rd) (st.reg 4#32 rs)))))

/-- MOV Rd, Rs with high registers (R642). -/
def execTMovHi (rs rd : RegNo) (st : State) : Answer :=
  answer (if bothLow rs rd then st.unpredictable (.tMovHi rs rd) else .ok (st.finishHi rd (st.reg 4#32 rs)))

/-- (pc + 4) AND NOT 3 (R360). -/
def State.pcBase (s : State) : Word := (s.cpu.pc + 4#32) &&& 0xFFFFFFFC#32

/-- An 8-bit word offset in bytes. -/
def wordOffset (imm8 : BitVec 8) : Word := imm8.setWidth 32 <<< 2

/-- ADD Rd, PC, #imm8*4 (R645). -/
def execTAddPc (rd : LowReg) (imm8 : BitVec 8) (st : State) : Answer :=
  .next (((st.billCode true).setReg rd.up (st.pcBase + wordOffset imm8)).advance)

/-- ADD Rd, SP, #imm8*4 (R646). -/
def execTAddSp (rd : LowReg) (imm8 : BitVec 8) (st : State) : Answer :=
  .next (((st.billCode true).setReg rd.up (st.reg 4#32 13#4 + wordOffset imm8)).advance)

/-- ADD SP, #imm7*4 and its negative (R650). -/
def execTAdjustSp (s : Bool) (imm7 : BitVec 7) (st : State) : Answer :=
  .next (((st.billCode true).setReg 13#4 (applyOffset (!s) (st.reg 4#32 13#4) (imm7.setWidth 32 <<< 2))).advance)

end Sys2Proof.Machine
end

