-- ==== Sys2Proof/Machine/ThumbBranch.lean ====
section
/-! DEFINITION. Thumb branches, SWI and the illegal halfwords (47_thumb_branch.md, 30_encoding.md R280). -/

namespace Sys2Proof.Machine

/-- The target of a Thumb branch: pc + 4 plus a signed halfword offset already extended (R730, R731). -/
def thumbTarget (pc off : Word) : Word := pc + 4#32 + (off <<< 1)

/-- B<cond> (R730): a failed condition is a plain advance billed 1S (R357). -/
def execTBcond (c : Cond) (off : BitVec 8) (st : State) : Answer :=
  .next (if condHolds c st.cpu.cpsr then st.branch (thumbTarget st.cpu.pc (off.signExtend 32)) else st.skip)

/-- B (R731). -/
def execTB (off : BitVec 11) (st : State) : Answer := .next (st.branch (thumbTarget st.cpu.pc (off.signExtend 32)))

/-- BX Rs (R735). -/
def execTBx (rs : RegNo) (st : State) : Answer := answer (st.exchange (.tBx rs) (st.reg 4#32 rs))

/-- BL, first half (R740): r14 takes the high part of the target. -/
def execTBlHigh (off : BitVec 11) (st : State) : Answer :=
  .next (((st.billCode true).setReg 14#4 (st.cpu.pc + 4#32 + (off.signExtend 32 <<< 12))).advance)

/-- BL, second half (R741): the branch, and r14 the address of the next halfword with bit 0 set. -/
def execTBlLow (off : BitVec 11) (st : State) : Answer :=
  .next ((st.setReg 14#4 ((st.cpu.pc + 2#32) ||| 1#32)).branch (st.reg 4#32 14#4 + (off.setWidth 32 <<< 1)))

/-- SWI (R745); the comment is ignored. -/
def execTSwi (_imm8 : BitVec 8) (st : State) : Answer := .next st.softwareInterrupt

/-- 0xDE00 to 0xDEFF (R280, R296). -/
def execTUndefCond (rest : BitVec 8) (st : State) : Answer := illegal (.tUndefCond rest) st

/-- Leading bits 11101 (R280). -/
def execTUndefBlx (rest : BitVec 11) (st : State) : Answer := illegal (.tUndefBlx rest) st

/-- 0xB100 to 0xB1FF (R280). -/
def execTUndefB1 (rest : BitVec 8) (st : State) : Answer := illegal (.tUndefB1 rest) st

/-- 0xB200 to 0xB2FF (R280). -/
def execTUndefB2 (rest : BitVec 8) (st : State) : Answer := illegal (.tUndefB2 rest) st

/-- 0xB300 to 0xB3FF (R280). -/
def execTUndefB3 (rest : BitVec 8) (st : State) : Answer := illegal (.tUndefB3 rest) st

/-- 0xB600 to 0xB6FF (R280). -/
def execTUndefB6 (rest : BitVec 8) (st : State) : Answer := illegal (.tUndefB6 rest) st

/-- 0xB700 to 0xB7FF (R280). -/
def execTUndefB7 (rest : BitVec 8) (st : State) : Answer := illegal (.tUndefB7 rest) st

/-- 0xB800 to 0xB8FF (R280). -/
def execTUndefB8 (rest : BitVec 8) (st : State) : Answer := illegal (.tUndefB8 rest) st

/-- 0xB900 to 0xB9FF (R280). -/
def execTUndefB9 (rest : BitVec 8) (st : State) : Answer := illegal (.tUndefB9 rest) st

/-- 0xBA00 to 0xBAFF (R280). -/
def execTUndefBA (rest : BitVec 8) (st : State) : Answer := illegal (.tUndefBA rest) st

/-- 0xBB00 to 0xBBFF (R280). -/
def execTUndefBB (rest : BitVec 8) (st : State) : Answer := illegal (.tUndefBB rest) st

/-- 0xBE00 to 0xBEFF (R280). -/
def execTUndefBE (rest : BitVec 8) (st : State) : Answer := illegal (.tUndefBE rest) st

/-- 0xBF00 to 0xBFFF (R280). -/
def execTUndefBF (rest : BitVec 8) (st : State) : Answer := illegal (.tUndefBF rest) st

end Sys2Proof.Machine
end

