-- ==== Sys2Proof/Machine/ThumbMem.lean ====
section
/-! DEFINITION. Thumb load and store formats 6-11, 14 and 15 (46_thumb_memory.md). -/

namespace Sys2Proof.Machine

/-- A 5-bit offset times a size. -/
def offset5 (off : BitVec 5) (shift : Nat) : Word := off.setWidth 32 <<< shift

/-- LDR Rd, [PC, #imm8*4] (R670). -/
def execTLdrPc (rd : LowReg) (imm8 : BitVec 8) (st : State) : Answer :=
  .next (st.loadLow (st.pcBase + wordOffset imm8) rd readWord)

/-- STR Rd, [Rb, Ro] (R675). -/
def execTStrReg (ro rb rd : LowReg) (st : State) : Answer := answer (st.storeLow (st.low rb + st.low ro) rd .word)

/-- STRB Rd, [Rb, Ro] (R676). -/
def execTStrbReg (ro rb rd : LowReg) (st : State) : Answer := answer (st.storeLow (st.low rb + st.low ro) rd .byte)

/-- LDR Rd, [Rb, Ro] (R677). -/
def execTLdrReg (ro rb rd : LowReg) (st : State) : Answer := .next (st.loadLow (st.low rb + st.low ro) rd readWord)

/-- LDRB Rd, [Rb, Ro] (R678). -/
def execTLdrbReg (ro rb rd : LowReg) (st : State) : Answer := .next (st.loadLow (st.low rb + st.low ro) rd readByte)

/-- STRH Rd, [Rb, Ro] (R680). -/
def execTStrhReg (ro rb rd : LowReg) (st : State) : Answer := answer (st.storeLow (st.low rb + st.low ro) rd .half)

/-- LDRH Rd, [Rb, Ro] (R681). -/
def execTLdrhReg (ro rb rd : LowReg) (st : State) : Answer :=
  .next (st.loadLow (st.low rb + st.low ro) rd readHalf)

/-- LDSB Rd, [Rb, Ro] (R682). -/
def execTLdsbReg (ro rb rd : LowReg) (st : State) : Answer :=
  .next (st.loadLow (st.low rb + st.low ro) rd readSignedByte)

/-- LDSH Rd, [Rb, Ro] (R683). -/
def execTLdshReg (ro rb rd : LowReg) (st : State) : Answer :=
  .next (st.loadLow (st.low rb + st.low ro) rd readSignedHalf)

/-- STR Rd, [Rb, #offset] (R685). -/
def execTStrImm (off : BitVec 5) (rb rd : LowReg) (st : State) : Answer :=
  answer (st.storeLow (st.low rb + offset5 off 2) rd .word)

/-- LDR Rd, [Rb, #offset] (R686). -/
def execTLdrImm (off : BitVec 5) (rb rd : LowReg) (st : State) : Answer :=
  .next (st.loadLow (st.low rb + offset5 off 2) rd readWord)

/-- STRB Rd, [Rb, #offset] (R687). -/
def execTStrbImm (off : BitVec 5) (rb rd : LowReg) (st : State) : Answer :=
  answer (st.storeLow (st.low rb + offset5 off 0) rd .byte)

/-- LDRB Rd, [Rb, #offset] (R688). -/
def execTLdrbImm (off : BitVec 5) (rb rd : LowReg) (st : State) : Answer :=
  .next (st.loadLow (st.low rb + offset5 off 0) rd readByte)

/-- STRH Rd, [Rb, #offset] (R690). -/
def execTStrhImm (off : BitVec 5) (rb rd : LowReg) (st : State) : Answer :=
  answer (st.storeLow (st.low rb + offset5 off 1) rd .half)

/-- LDRH Rd, [Rb, #offset] (R691). -/
def execTLdrhImm (off : BitVec 5) (rb rd : LowReg) (st : State) : Answer :=
  .next (st.loadLow (st.low rb + offset5 off 1) rd readHalf)

/-- STR Rd, [SP, #imm8*4] (R695). -/
def execTStrSp (rd : LowReg) (imm8 : BitVec 8) (st : State) : Answer :=
  answer (st.storeLow (st.reg 4#32 13#4 + wordOffset imm8) rd .word)

/-- LDR Rd, [SP, #imm8*4] (R696). -/
def execTLdrSp (rd : LowReg) (imm8 : BitVec 8) (st : State) : Answer :=
  .next (st.loadLow (st.reg 4#32 13#4 + wordOffset imm8) rd readWord)

/-- The registers PUSH moves: the listed low registers, then LR if asked (R700). -/
def pushList (r : Bool) (list : BitVec 8) : List RegNo := lowList list ++ if r then [14#4] else []

/-- The number of words PUSH or POP moves (46_thumb_memory.md section 7). -/
def stackCount (r : Bool) (list : BitVec 8) : Nat := (lowList list).length + r.toNat

/-- PUSH (R700). -/
def State.push (r : Bool) (list : BitVec 8) (s : State) : Except Fault State := do
  let start := s.reg 4#32 13#4 - fourTimes (stackCount r list)
  let t ← (s.billCode false).storeWords ((pushList r list).map (s.reg 4#32)) start false
  return (t.setReg 13#4 start).advance

/-- POP (R701): with r the last word is the new program counter and the state stays Thumb. -/
def State.pop (r : Bool) (list : BitVec 8) (s : State) : State :=
  let n := stackCount r list
  let start := s.reg 4#32 13#4
  let l := (s.billCode true).loadWords n start false
  let t := ((l.2.bill 1).setReg 13#4 (start + fourTimes n)).assignRegs s.cpu.cpsr.mode ((lowList list).zip l.1)
  if r then (t.branchTo (l.1.getLastD 0#32)).billRefill 2#32 else t.advance

/-- PUSH (R700); an empty list is unpredictable (D52). -/
def execTPush (r : Bool) (list : BitVec 8) (st : State) : Answer :=
  answer (if stackCount r list = 0 then st.unpredictable (.tPush r list) else st.push r list)

/-- POP (R701); an empty list is unpredictable (D52). -/
def execTPop (r : Bool) (list : BitVec 8) (st : State) : Answer :=
  answer (if stackCount r list = 0 then st.unpredictable (.tPop r list) else .ok (st.pop r list))

/-- STMIA Rb! after its checks (R705). -/
def State.stmia (rb : LowReg) (list : BitVec 8) (s : State) : Except Fault State := do
  let t ← (s.billCode false).storeWords ((lowList list).map (s.reg 4#32)) (s.low rb) false
  return (t.setReg rb.up (s.low rb + fourTimes (lowList list).length)).advance

/-- LDMIA Rb! after its checks (R706): no write-back when the base is loaded. -/
def State.ldmia (rb : LowReg) (list : BitVec 8) (s : State) : State :=
  let n := (lowList list).length
  let l := (s.billCode true).loadWords n (s.low rb) false
  let wb := if list.getLsbD rb.toNat then l.2.bill 1 else (l.2.bill 1).setReg rb.up (s.low rb + fourTimes n)
  (wb.assignRegs s.cpu.cpsr.mode ((lowList list).zip l.1)).advance

/-- Whether STMIA is unpredictable (R705, D52): an empty list, or the base listed and not the lowest. -/
def badStmia (rb : LowReg) (list : BitVec 8) : Bool :=
  list == 0#8 || (list.getLsbD rb.toNat && (lowList list).head? != some rb.up)

/-- STMIA Rb!, list (R705). -/
def execTStmia (rb : LowReg) (list : BitVec 8) (st : State) : Answer :=
  answer (if badStmia rb list then st.unpredictable (.tStmia rb list) else st.stmia rb list)

/-- LDMIA Rb!, list (R706); an empty list is unpredictable (D52). -/
def execTLdmia (rb : LowReg) (list : BitVec 8) (st : State) : Answer :=
  answer (if list = 0#8 then st.unpredictable (.tLdmia rb list) else .ok (st.ldmia rb list))

end Sys2Proof.Machine
end

