-- ==== Sys2Proof/Machine/Written.lean ====
section
/-! DEFINITION. The check for unwritten registers (10_state.md R91, 40_execution_cycle.md R369): which stored registers
an instruction reads, and what stops it before it reads them. -/

namespace Sys2Proof

/-- The condition field of an ARM instruction (R253); none for Thumb instructions. -/
def Instr.cond : Instr → Option Cond
  | .bx c _ => some c
  | .mul c .. | .mla c .. | .umull c .. | .umlal c .. | .smull c .. | .smlal c .. => some c
  | .swp c .. | .swpb c .. => some c
  | .strhReg c .. | .strhImm c .. | .ldrhReg c .. | .ldrhImm c .. | .ldrsbReg c .. | .ldrsbImm c .. => some c
  | .ldrshReg c .. | .ldrshImm c .. => some c
  | .mrs c .. | .msrCpsrReg c .. | .msrCpsrImm c .. | .msrSpsrReg c .. | .msrSpsrImm c .. => some c
  | .and c .. | .eor c .. | .sub c .. | .rsb c .. | .add c .. | .adc c .. | .sbc c .. | .rsc c .. => some c
  | .tst c .. | .teq c .. | .cmp c .. | .cmn c .. | .orr c .. | .mov c .. | .bic c .. | .mvn c .. => some c
  | .str c .. | .ldr c .. | .strb c .. | .ldrb c .. | .strt c .. | .ldrt c .. | .strbt c .. | .ldrbt c .. => some c
  | .undefinedArm c .. => some c
  | .stm c .. | .ldm c .. => some c
  | .b c _ | .bl c _ => some c
  | .ldcStc c _ | .cdp c .. | .mcrMrc c .. => some c
  | .swi c _ => some c
  | _ => none

/-- The register operands of operand2. -/
def Operand2.regs : Operand2 → List RegNo
  | .imm .. => []
  | .regImm _ _ rm => [rm]
  | .regReg rs _ rm => [rs, rm]

/-- The register operands of an offset. -/
def Offset.regs : Offset → List RegNo
  | .imm _ => []
  | .reg _ _ rm => [rm]

/-- The registers an instruction reads by name through the view of its mode, r15 among them; the lists of STM are in
`State.listSources`. -/
def Instr.sources : Instr → List RegNo
  | .bx _ rm => [rm]
  | .mul _ _ _ _ rs rm => [rm, rs]
  | .mla _ _ _ rn rs rm => [rm, rs, rn]
  | .umull _ _ _ _ rs rm | .smull _ _ _ _ rs rm => [rm, rs]
  | .umlal _ _ rdHi rdLo rs rm | .smlal _ _ rdHi rdLo rs rm => [rm, rs, rdHi, rdLo]
  | .swp _ rn _ rm | .swpb _ rn _ rm => [rn, rm]
  | .strhReg _ _ _ _ rn rd rm => [rm, rn, rd]
  | .strhImm _ _ _ _ rn rd _ => [rn, rd]
  | .ldrhReg _ _ _ _ rn _ rm | .ldrsbReg _ _ _ _ rn _ rm | .ldrshReg _ _ _ _ rn _ rm => [rm, rn]
  | .ldrhImm _ _ _ _ rn _ _ | .ldrsbImm _ _ _ _ rn _ _ | .ldrshImm _ _ _ _ rn _ _ => [rn]
  | .mrs .. | .msrCpsrImm .. | .msrSpsrImm .. => []
  | .msrCpsrReg _ _ rm | .msrSpsrReg _ _ rm => [rm]
  | .and _ _ rn _ op2 | .eor _ _ rn _ op2 | .sub _ _ rn _ op2 | .rsb _ _ rn _ op2 | .add _ _ rn _ op2 => op2.regs ++ [rn]
  | .adc _ _ rn _ op2 | .sbc _ _ rn _ op2 | .rsc _ _ rn _ op2 | .orr _ _ rn _ op2 | .bic _ _ rn _ op2 => op2.regs ++ [rn]
  | .tst _ rn _ op2 | .teq _ rn _ op2 | .cmp _ rn _ op2 | .cmn _ rn _ op2 => op2.regs ++ [rn]
  | .mov _ _ _ _ op2 | .mvn _ _ _ _ op2 => op2.regs
  | .str _ _ _ _ rn rd off | .strb _ _ _ _ rn rd off | .strt _ _ rn rd off | .strbt _ _ rn rd off => off.regs ++ [rn, rd]
  | .ldr _ _ _ _ rn _ off | .ldrb _ _ _ _ rn _ off | .ldrt _ _ rn _ off | .ldrbt _ _ rn _ off => off.regs ++ [rn]
  | .stm _ _ _ _ _ rn _ | .ldm _ _ _ _ _ rn _ => [rn]
  | .undefinedArm .. | .b .. | .bl .. | .ldcStc .. | .cdp .. | .mcrMrc .. | .swi .. => []
  | .tLslImm _ rs _ | .tLsrImm _ rs _ | .tAsrImm _ rs _ => [rs.up]
  | .tAddReg rn rs _ | .tSubReg rn rs _ => [rs.up, rn.up]
  | .tAddImm3 _ rs _ | .tSubImm3 _ rs _ => [rs.up]
  | .tMovImm8 .. => []
  | .tCmpImm8 rd _ | .tAddImm8 rd _ | .tSubImm8 rd _ => [rd.up]
  | .tAnd rs rd | .tEor rs rd | .tLslReg rs rd | .tLsrReg rs rd | .tAsrReg rs rd | .tAdc rs rd => [rd.up, rs.up]
  | .tSbc rs rd | .tRorReg rs rd | .tTst rs rd | .tCmpReg rs rd | .tCmn rs rd | .tOrr rs rd => [rd.up, rs.up]
  | .tMul rs rd | .tBic rs rd => [rd.up, rs.up]
  | .tNeg rs _ | .tMvn rs _ => [rs.up]
  | .tAddHi rs rd | .tCmpHi rs rd => [rd, rs]
  | .tMovHi rs _ => [rs]
  | .tBx rs => [rs]
  | .tLdrPc .. => []
  | .tStrReg ro rb rd | .tStrbReg ro rb rd | .tStrhReg ro rb rd => [rb.up, ro.up, rd.up]
  | .tLdrReg ro rb _ | .tLdrbReg ro rb _ | .tLdrhReg ro rb _ | .tLdsbReg ro rb _ | .tLdshReg ro rb _ => [rb.up, ro.up]
  | .tStrImm _ rb rd | .tStrbImm _ rb rd | .tStrhImm _ rb rd => [rb.up, rd.up]
  | .tLdrImm _ rb _ | .tLdrbImm _ rb _ | .tLdrhImm _ rb _ => [rb.up]
  | .tStrSp rd _ => [13#4, rd.up]
  | .tLdrSp .. | .tAddSp .. | .tAdjustSp .. | .tPop .. => [13#4]
  | .tAddPc .. => []
  | .tPush r list => 13#4 :: Machine.pushList r list
  | .tStmia rb list => rb.up :: Machine.lowList list
  | .tLdmia rb _ => [rb.up]
  | .tBlLow _ => [14#4]
  | .tSwi _ | .tBcond .. | .tB _ | .tBlHigh _ => []
  | .tUndefCond _ | .tUndefBlx _ | .tUndefB1 _ | .tUndefB2 _ | .tUndefB3 _ | .tUndefB6 _ | .tUndefB7 _ => []
  | .tUndefB8 _ | .tUndefB9 _ | .tUndefBA _ | .tUndefBB _ | .tUndefBE _ | .tUndefBF _ => []

/-- Whether an instruction reads the SPSR of its mode: MRS of it, and the restores of R365. -/
def Instr.readsSpsr : Instr → Bool
  | .mrs _ r _ => r
  | .and _ s _ rd _ | .eor _ s _ rd _ | .sub _ s _ rd _ | .rsb _ s _ rd _ | .add _ s _ rd _ => s && rd == 15#4
  | .adc _ s _ rd _ | .sbc _ s _ rd _ | .rsc _ s _ rd _ | .orr _ s _ rd _ | .bic _ s _ rd _ => s && rd == 15#4
  | .mov _ s _ rd _ | .mvn _ s _ rd _ => s && rd == 15#4
  | .ldm _ _ _ s _ _ list => s && list.getLsbD 15
  | _ => false

end Sys2Proof

namespace Sys2Proof.Machine

/-- Whether an instruction executes: its condition passes, or it has none (R356). -/
def State.executes (s : State) (i : Instr) : Bool := i.cond.all fun c => condHolds c s.cpu.cpsr

/-- The faults of RestoreCheck (R365, R409, R542): a mode without an SPSR, or an SPSR with an illegal mode. An unwritten
SPSR has no mode to check; the restore reads it, which `State.reads` lists first. -/
def State.badRestore (s : State) : Bool :=
  match spsrIndex s.cpu.cpsr.mode with
  | none => true
  | some k => s.cpu.spsrWritten.get k && !legalMode (s.cpu.spsr.get k).mode

/-- The restrictions an instruction's rule checks before it reads an operand (R354, R409, R466, R509, R525, R542, R545,
R562 and the Thumb rules): with one of them it ends in Fault(Unpredictable) first. -/
def State.forbids (s : State) : Instr → Bool
  | .mul _ _ rd _ rs rm => badMul rd rm [rs]
  | .mla _ _ rd rn rs rm => badMul rd rm [rn, rs]
  | .umull _ _ rdHi rdLo rs rm | .umlal _ _ rdHi rdLo rs rm => badLong rdHi rdLo rs rm
  | .smull _ _ rdHi rdLo rs rm | .smlal _ _ rdHi rdLo rs rm => badLong rdHi rdLo rs rm
  | .swp _ rn rd rm | .swpb _ rn rd rm => badSwap rn rd rm
  | .strhReg _ p u w rn rd rm => badHalf (s.access p u w rn 0#32) false p w rn rd (rm == 15#4)
  | .strhImm _ p u w rn rd _ => badHalf (s.access p u w rn 0#32) false p w rn rd false
  | .ldrhReg _ p u w rn rd rm | .ldrsbReg _ p u w rn rd rm | .ldrshReg _ p u w rn rd rm =>
    badHalf (s.access p u w rn 0#32) true p w rn rd (rm == 15#4)
  | .ldrhImm _ p u w rn rd _ | .ldrsbImm _ p u w rn rd _ | .ldrshImm _ p u w rn rd _ =>
    badHalf (s.access p u w rn 0#32) true p w rn rd false
  | .mrs _ r rd => rd == 15#4 || (r && s.spsr.isNone)
  | .msrCpsrReg _ _ rm => rm == 15#4
  | .msrSpsrReg _ _ rm => rm == 15#4 || s.spsr.isNone
  | .msrSpsrImm .. => s.spsr.isNone
  | .and _ sf _ rd op2 | .eor _ sf _ rd op2 | .sub _ sf _ rd op2 | .rsb _ sf _ rd op2 | .add _ sf _ rd op2 =>
    badShiftAmount op2 || (sf && rd == 15#4 && s.badRestore)
  | .adc _ sf _ rd op2 | .sbc _ sf _ rd op2 | .rsc _ sf _ rd op2 | .orr _ sf _ rd op2 | .bic _ sf _ rd op2 =>
    badShiftAmount op2 || (sf && rd == 15#4 && s.badRestore)
  | .mov _ sf _ rd op2 | .mvn _ sf _ rd op2 => badShiftAmount op2 || (sf && rd == 15#4 && s.badRestore)
  | .tst _ _ _ op2 | .teq _ _ _ op2 | .cmp _ _ _ op2 | .cmn _ _ _ op2 => badShiftAmount op2
  | .str _ p u w rn _ off | .strb _ p u w rn _ off => badStore (s.access p u w rn 0#32) rn off
  | .strt _ u rn _ off | .strbt _ u rn _ off => badStore (s.access false u true rn 0#32) rn off
  | .ldr _ p u w rn rd off => badLoad (s.access p u w rn 0#32) rn rd off false
  | .ldrb _ p u w rn rd off => badLoad (s.access p u w rn 0#32) rn rd off true
  | .ldrt _ u rn rd off => badLoad (s.access false u true rn 0#32) rn rd off false
  | .ldrbt _ u rn rd off => badLoad (s.access false u true rn 0#32) rn rd off true
  | .stm _ _ _ sf w rn list => s.badStm sf w rn list
  | .ldm _ _ _ sf w rn list => s.badLdmForm sf w rn list || (sf && list.getLsbD 15 && s.badRestore)
  | .tMul rs rd => rs == rd
  | .tAddHi rs rd | .tCmpHi rs rd | .tMovHi rs rd => bothLow rs rd
  | .tPush r list | .tPop r list => stackCount r list == 0
  | .tStmia rb list => badStmia rb list
  | .tLdmia _ list => list == 0#8
  | _ => false

/-- The listed registers STM reads, of the bank it stores; the base and r15 are not read so (R543, log entry 16). -/
def State.listSources (s : State) : Instr → List StoredReg
  | .stm _ _ _ sf _ rn list =>
    ((regList list).filter fun i => i != 15#4 && i != rn).map fun i => .general (phys (s.blockMode sf) i)
  | _ => []

/-- The SPSR an instruction reads, as a list. -/
def State.spsrSource (s : State) (i : Instr) : List StoredReg :=
  if i.readsSpsr then ((spsrIndex s.cpu.cpsr.mode).map StoredReg.saved).toList else []

/-- The stored registers an instruction reads (R91): the SPSR of a restore first, as R409 checks it, then its operands,
then its list. Reading the program counter is no such read (R369). That a restore is such a read is DEDUCED, and the
order among the registers a DESIGN CHOICE (log entry 33). -/
def State.reads (s : State) (i : Instr) : List StoredReg :=
  s.spsrSource i ++ ((i.sources.filter (· != 15#4)).map fun r => .general (phys s.cpu.cpsr.mode r)) ++ s.listSources i

/-- Whether a register is marked written (R91). -/
def State.isWritten (s : State) : StoredReg → Bool
  | .general k => s.cpu.written.get k
  | .saved k => s.cpu.spsrWritten.get k

/-- The unwritten register an instruction would read, if it executes and passes the checks that come first (R369). -/
def State.unwrittenRead (s : State) (i : Instr) : Option StoredReg :=
  if s.executes i && !s.forbids i then (s.reads i).find? fun r => !s.isWritten r else none

end Sys2Proof.Machine
end

