-- ==== Sys2Proof/Machine/Fetch.lean ====
section
/-! DEFINITION. The CPU step (40_execution_cycle.md R350-R353) and the parts of the system step (60_exceptions.md R850)
that Machine/Step.lean puts together; and the placing of an instruction where the step fetches next. -/

namespace Sys2Proof.Machine

/-- Fetch(pc, w) (R352): the value at the program counter, billing nothing. -/
def State.fetch (s : State) : Word × State := s.readRaw .fetch s.cpu.pc (codeWidth s.cpu.cpsr.t)

/-- Decode(word, CPSR.T) (R353). -/
def decodeFetched (thumb : Bool) (word : Word) : Except DecodeError Instr :=
  if thumb then decodeThumb (word.setWidth 16) else decodeArm word

/-- The fault of a value that is no instruction (R306, R368). -/
def decodeFault (pc word : Word) : DecodeError → FaultRecord
  | .illegal => .illegalInstruction pc word
  | .unpredictable => .unpredictable pc word
  | .truncated => .unpredictable pc word

/-- The state in which a fetched instruction executes: after its fetch, memoized (R196). -/
def State.fetched (s : State) : State := s.fetch.2.cacheFill s.cpu.pc s.cpu.cpsr.t s.fetch.1

/-- The instruction at the program counter. -/
def State.currentInstr (s : State) : Except DecodeError Instr := decodeFetched s.cpu.cpsr.t s.fetch.1

/-- Execute an instruction (R350), unless it reads an unwritten register: then it ends in Fault(UnwrittenRegister) before
any state write (R369). -/
def State.execute (s : State) (i : Instr) : Answer :=
  match s.unwrittenRead i with
  | some r => .fault (s.raise (.unwrittenRegister s.cpu.pc r))
  | none => exec i s

/-- CpuStep() (R350): fetch, decode, execute. A decode fault leaves the state as the fetch's own read left it (R25, R368,
log entry 9). -/
def State.cpuStep (s : State) : Answer :=
  match s.currentInstr with
  | .error e => .fault (s.fetch.2.raise (decodeFault s.cpu.pc s.fetch.1 e))
  | .ok i => s.fetched.execute i

/-- Step 2 of R850: IRQ entry at the boundary if the line is active and CPSR.I = 0. -/
def State.takeIrq (s : State) : State := if s.irqLine && !s.cpu.cpsr.i then s.enterIrq else s

/-- Step 4 of R850: the event pass after a CPU step; a fault ends the step (R370). -/
def afterCpuStep : Answer → Answer
  | .next s => answer s.eventPass
  | .fault f => .fault f
  | .refused r => .refused r

/-- Step 1 of R850: a halted CPU waits for the next event. -/
def State.haltStep (s : State) : Answer := answer s.skipToEvent.eventPass

/-! ### Placing an instruction -/

/-- Whether the fetch at the program counter reads bytes of memory that can be placed there, for n bytes. -/
def State.canPlace (s : State) (n : Nat) : Bool :=
  match s.region s.cpu.pc with
  | .bios => slotOffset s.cpu.pc + n ≤ s.biosLen
  | .ewram | .iwram | .palette | .vram | .oam => true
  | .rom0 | .rom1 | .rom2 =>
    romOffset s.cpu.pc + n ≤ s.romLen && !s.isEepromPort s.cpu.pc
      && !(slot s.cpu.pc == 0x08 && inGpioWindow (romOffset s.cpu.pc) && s.gpio.readable)
  | .io | .save | .unmapped => false

/-- A program counter at which an instruction of n bytes can be placed: the present one, or the start of IWRAM. -/
def State.placeable (n : Nat) (s : State) : State := if s.canPlace n then s else s.setPc 0x03000000#32

/-- A running machine in an encoding mode that takes no IRQ before its next instruction (log entry 22). -/
def State.ready (thumb : Bool) (s : State) : State :=
  let t := s.setCpsr { s.cpu.cpsr with t := thumb, i := s.cpu.cpsr.i || s.irqLine }
  { t with halted := false, stopped := false, fault := none }

/-- Store a value of a width in the memory behind the program counter. -/
def State.placeWord (w : Width) (v : Word) (s : State) : State :=
  s.setMem (s.mem.write (storageKey (s.region s.cpu.pc) s.cpu.pc) v w)

end Sys2Proof.Machine
end

