-- ==== Sys2Proof/Machine/Step.lean ====
section
/-! DEFINITION. The step of the machine, SystemStep (60_exceptions.md R850), and the placing of an instruction where it
fetches next. -/

namespace Sys2Proof.Machine

/-- SystemStep() (R850). A machine with a fault record, or stopped, has no step: the answer is that fault (R25). -/
def step (s : State) : Host.Outcome State Fault Refusal :=
  match s.fault with
  | some r => .fault (s.raise r)
  | none =>
    if s.stopped then .fault (.stopped s)
    else if s.halted then s.haltStep
    else afterCpuStep s.takeIrq.cpuStep

/-- The state with the instruction of a table word where the next step fetches (log entry 22): 16-bit rows in Thumb
state, the others in ARM state. -/
def State.withFetchWord (s : State) (nbits w : Nat) : State :=
  let thumb := nbits == 16
  let width := codeWidth thumb
  ((s.ready thumb).placeable width.bytes).placeWord width (BitVec.ofNat 32 (w % 2 ^ nbits))

end Sys2Proof.Machine
end

