-- ==== Sys2Proof/Machine/Launch.lean ====
section
/-! DEFINITION. Launch (70_reset_and_hazards.md R1180-R1187): the header check, the choice of the savedata backend
(65_io_misc.md R1136, R1150, R1151), ColdReset with the host's images, and DirectBoot. -/

namespace Sys2Proof.Machine

/-- The arguments of a launch (R15). -/
structure LaunchInput where
  /-- BIOS_IMAGE, at most 16384 bytes. -/
  bios : List Byte
  /-- ROM_IMAGE, at most 33554432 bytes. -/
  rom : List Byte
  /-- SAVE_BLOB. -/
  saveBlob : Option (List Byte)
  /-- LAUNCH = DirectBoot; else ColdReset. -/
  directBoot : Bool
  /-- FLASH_ID, if given: manufacturer and device. -/
  flashId : Option (Byte × Byte)
  /-- The other parameters; its FLASH_ID fields are replaced. -/
  params : Params
deriving DecidableEq, Repr

/-- Whether the lengths are those R15 allows. -/
def LaunchInput.ok (x : LaunchInput) : Bool := x.bios.length ≤ 16384 && x.rom.length ≤ 33554432

/-- The header check (R1136). -/
def headerValid (rom : List Byte) : Bool := 0xC0 ≤ rom.length && rom[0xB2]? == some 0x96#8

/-- A marker's ASCII bytes. -/
def asciiBytes (s : String) : List Byte := s.toList.map fun c => BitVec.ofNat 8 c.toNat

/-- The save-type markers (R1150). -/
def saveMarkers : List (List Byte × Backend) :=
  [(asciiBytes "EEPROM_V", .eeprom), (asciiBytes "SRAM_V", .sram), (asciiBytes "FLASH_V", .flash64),
    (asciiBytes "FLASH512_V", .flash64), (asciiBytes "FLASH1M_V", .flash128)]

/-- The backend of a marker at the front of a byte list. -/
def markerAt (bs : List Byte) : Option Backend := (saveMarkers.find? fun m => m.1.isPrefixOf bs).map (·.2)

/-- The marker scan at every multiple of 4 (R1150), for at most a number of offsets. -/
def scanMarkers : Nat → List Byte → Option Backend
  | 0, _ => none
  | n + 1, bs =>
    match markerAt bs with
    | some b => some b
    | none => scanMarkers n (bs.drop 4)

/-- The backend of a ROM image without a blob (R1150). -/
def scanBackend (rom : List Byte) : Backend := (scanMarkers (rom.length / 4 + 1) rom).getD .sram

/-- The backend of a blob by its size (R1151). -/
def blobBackend (n : Nat) : Backend × EepromBits :=
  if n = 65536 then (.flash64, .undecided)
  else if n = 131072 then (.flash128, .undecided)
  else if n = 512 then (.eeprom, .six)
  else if n = 8192 then (.eeprom, .fourteen)
  else (.sram, .undecided)

/-- The backend and the EEPROM's address width (R1151). -/
def LaunchInput.backend (x : LaunchInput) : Backend × EepromBits :=
  match x.saveBlob with
  | some blob => blobBackend blob.length
  | none => (scanBackend x.rom, .undecided)

/-- The bytes a blob gives to save memory (R1151): an SRAM takes the first 32768. -/
def blobBytes (b : Backend) (blob : List Byte) : List Byte := if b = .sram then blob.take 32768 else blob

/-- Bytes as memory cells from a storage address on. -/
def cellsFrom : Nat → List Byte → Memory
  | _, [] => []
  | k, b :: bs => (k, b) :: cellsFrom (k + 1) bs

/-- Memory at launch (R1181): the images and the blob; every other byte is free (D58). -/
def LaunchInput.memory (x : LaunchInput) : Memory :=
  cellsFrom 0 x.bios ++ cellsFrom 0x08000000 x.rom
    ++ cellsFrom saveBase (blobBytes x.backend.1 (x.saveBlob.getD []))

/-- The default FLASH_ID of a backend (R1156). -/
def defaultFlashId (b : Backend) : Byte × Byte := if b = .flash128 then (0x62#8, 0x13#8) else (0x32#8, 0x1B#8)

/-- The parameters with FLASH_ID. -/
def LaunchInput.runParams (x : LaunchInput) : Params :=
  let f := x.flashId.getD (defaultFlashId x.backend.1)
  { x.params with flashMaker := f.1, flashDevice := f.2 }

/-- The CPU at ColdReset (R121, R91): the four flags are free, and no general register or SPSR is written. -/
def coldResetCpu : Cpu :=
  { Cpu.reset with
    cpsr := Psr.reset.setFlagBits Config.launchFlags
    written := Vector.replicate 30 false, spsrWritten := Vector.replicate 5 false }

/-- The ColdReset state of a launch (R1180). -/
def LaunchInput.coldReset (x : LaunchInput) : State :=
  { State.reset with
    cpu := coldResetCpu, mem := x.memory, biosLen := x.bios.length, romLen := x.rom.length, params := x.runParams,
    save := Save.idle x.backend.1 x.backend.2 }

/-- The registers of DirectBoot (R1186): r13 of User, IRQ and Supervisor, in the places of `Cpu.gpr`. -/
def directBootCpu : Cpu :=
  { gpr := (((Vector.replicate 30 0#32).set 13 0x03007F00#32).set 22 0x03007FA0#32).set 24 0x03007FE0#32,
    pc := 0x08000000#32,
    cpsr := { n := false, z := false, c := false, v := false, i := false, f := false, t := false, mode := 0b11111#5 },
    spsr := Vector.replicate 5 Psr.zero, written := Vector.replicate 30 true, spsrWritten := Vector.replicate 5 true }

/-- BG2 and BG3 at DirectBoot (R1186). -/
def directBootAffine : Affine := { Affine.reset with pa := 0x0100#16, pd := 0x0100#16 }

/-- DirectBoot (R1186) applied to a ColdReset state. -/
def State.directBoot (s : State) : State :=
  { s with
    cpu := directBootCpu, ppu := { s.ppu with affine := Vector.replicate 2 directBootAffine },
    apu := { s.apu with bias := 0x0200#16 }, postflg := true }

/-- Launch (R1180); none is the outcome Rejected. -/
def launch (x : LaunchInput) : Option State :=
  if headerValid x.rom then some (if x.directBoot then x.coldReset.directBoot else x.coldReset) else none

end Sys2Proof.Machine
end

