-- ==== Sys2Proof/Safety.lean ====
section
/-! DEFINITION. What a safe run is, and the terms claims are stated in: outcomes, effects and frames of an instruction,
the memory a store changes, and the invariant every step keeps. -/

namespace Sys2Proof

/-! ### Instructions as syntax -/

/-- The rows that are illegal whenever they are decoded (R266, R269, R280, R590). -/
def Instr.illegalRow : Instr → Bool
  | .undefinedArm .. | .ldcStc .. | .cdp .. | .mcrMrc .. => true
  | .tUndefCond _ | .tUndefBlx _ | .tUndefB1 _ | .tUndefB2 _ | .tUndefB3 _ | .tUndefB6 _ | .tUndefB7 _ => true
  | .tUndefB8 _ | .tUndefB9 _ | .tUndefBA _ | .tUndefBB _ | .tUndefBE _ | .tUndefBF _ => true
  | _ => false

/-- The program-counter writers of R362. -/
def Instr.writesPc : Instr → Bool
  | .and _ _ _ rd _ | .eor _ _ _ rd _ | .sub _ _ _ rd _ | .rsb _ _ _ rd _ | .add _ _ _ rd _ | .adc _ _ _ rd _ => rd == 15#4
  | .sbc _ _ _ rd _ | .rsc _ _ _ rd _ | .orr _ _ _ rd _ | .mov _ _ _ rd _ | .bic _ _ _ rd _ | .mvn _ _ _ rd _ => rd == 15#4
  | .ldr _ _ _ _ _ rd _ | .ldrt _ _ _ rd _ => rd == 15#4
  | .ldm _ _ _ _ _ _ list => list.getLsbD 15
  | .b .. | .bl .. | .bx .. | .swi .. | .tSwi _ | .tBx _ | .tB _ | .tBlLow _ | .tBcond .. => true
  | .tAddHi _ rd | .tMovHi _ rd => rd == 15#4
  | .tPop r _ => r
  | _ => false

end Sys2Proof

namespace Sys2Proof.Machine

/-! ### Outcomes -/

/-- An answer is a next state of which P holds. -/
def Completes (a : Answer) (P : State → Prop) : Prop := ∃ t, a = .next t ∧ P t

/-- A run of n steps that ends in a state. -/
def Runs : Nat → State → State → Prop
  | 0, s, t => t = s
  | n + 1, s, t => ∃ u, step s = .next u ∧ Runs n u t

/-- A state from which the machine can go on. -/
def State.live (s : State) : Bool := s.fault.isNone && !s.stopped

/-! ### Effects and frames -/

/-- Exactly the stored registers listed change, each to its listed value (the first listed counts), and exactly they
become marked written (R91). -/
def Wrote (s t : State) (ds : List (Fin 30 × Word)) : Prop :=
  ∀ k : Fin 30, t.cpu.gpr.get k = (ds.lookup k).getD (s.cpu.gpr.get k) ∧
    t.cpu.written.get k = (s.cpu.written.get k || (ds.lookup k).isSome)

/-- Every SPSR and its written mark stay. -/
def SameSpsrs (s t : State) : Prop := t.cpu.spsr = s.cpu.spsr ∧ t.cpu.spsrWritten = s.cpu.spsrWritten

/-- The SPSR of place k takes a value and is marked written, and every other stays (R91). -/
def WroteSpsr (s t : State) (k : Fin 5) (p : Psr) : Prop :=
  t.cpu.spsr = s.cpu.spsr.set k.val p k.isLt ∧ t.cpu.spsrWritten = s.cpu.spsrWritten.set k.val true k.isLt

/-- Every byte of memory reads as before. -/
def SameBytes (s t : State) : Prop := ∀ k : Nat, t.mem.byte k = s.mem.byte k

/-- Memory reads as before but for the cells listed (the first listed counts). -/
def WroteBytes (s t : State) (cells : List (Nat × Byte)) : Prop :=
  ∀ k : Nat, t.mem.byte k = (cells.lookup k).getD (s.mem.byte k)

/-- Nothing outside the CPU and the cycle counter changes. -/
def OnlyCpu (s t : State) : Prop := t = { s with cpu := t.cpu, cycles := t.cycles }

/-- Nothing outside the CPU, the cycle counter and the draws counter changes. -/
def OnlyCpuDraws (s t : State) : Prop := t = { s with cpu := t.cpu, cycles := t.cycles, draws := t.draws }

/-- Nothing outside the CPU, the cycle counter and what a read may move (draws, the EEPROM's read position) changes. -/
def OnlyCpuRead (s t : State) : Prop :=
  t = { s with
    cpu := t.cpu, cycles := t.cycles, draws := t.draws, save := { s.save with eeprom := t.save.eeprom } }

/-- Nothing outside the CPU, the cycle counter, memory and the instruction cache changes. -/
def OnlyCpuMem (s t : State) : Prop :=
  t = { s with cpu := t.cpu, cycles := t.cycles, mem := t.mem, icache := t.icache }

/-- The CPU after an instruction: the listed registers, CPSR and the program counter as given, every SPSR kept. -/
def CpuEffect (s t : State) (ds : List (Fin 30 × Word)) (p : Psr) (pc : Word) : Prop :=
  Wrote s t ds ∧ t.cpu.cpsr = p ∧ t.cpu.pc = pc ∧ SameSpsrs s t

/-- The effect of an instruction that touches registers only. -/
def Effect (s t : State) (ds : List (Fin 30 × Word)) (p : Psr) (pc : Word) : Prop :=
  CpuEffect s t ds p pc ∧ OnlyCpu s t ∧ SameBytes s t

/-- The stored register that the current mode sees as register i. -/
def State.here (s : State) (i : RegNo) : Fin 30 := phys s.cpu.cpsr.mode i

/-- The address of the next instruction in memory. -/
def State.following (s : State) : Word := s.cpu.pc + codeStep s.cpu.cpsr.t

/-! ### Arithmetic as the spec states it (R26) -/

/-- N, Z, C, V of `x + y + ci`, by exact arithmetic. -/
def sumFlags (p : Psr) (x y : Word) (ci : Bool) : Psr :=
  { p with
    n := decide ((2 ^ 31 : Nat) ≤ (x.toNat + y.toNat + ci.toNat) % 2 ^ 32)
    z := decide ((x.toNat + y.toNat + ci.toNat) % 2 ^ 32 = 0)
    c := decide (2 ^ 32 ≤ x.toNat + y.toNat + ci.toNat)
    v := decide (¬(-2 ^ 31 ≤ x.toInt + y.toInt + ci.toNat ∧ x.toInt + y.toInt + (ci.toNat : Int) < 2 ^ 31)) }

/-- N, Z, C, V of `x - y - b`, b the borrow asked for: C is "no borrow", V a signed result outside 32 bits. -/
def diffFlags (p : Psr) (x y : Word) (b : Bool) : Psr :=
  { p with
    n := (x - y - (BitVec.ofBool b).setWidth 32).msb
    z := decide (x = y + (BitVec.ofBool b).setWidth 32)
    c := decide (y.toNat + b.toNat ≤ x.toNat)
    v := decide (¬(-2 ^ 31 ≤ x.toInt - y.toInt - b.toNat ∧ x.toInt - y.toInt - (b.toNat : Int) < 2 ^ 31)) }

/-- N and Z of a value, by its number. -/
def signZero (p : Psr) (v : Word) : Psr := { p with n := decide (2 ^ 31 ≤ v.toNat), z := decide (v.toNat = 0) }

/-! ### Memory -/

/-- Storage addresses that no step writes: the BIOS image and the cartridge ROM image. -/
def readOnlyKey (k : Nat) : Prop := k < 0x4000 ∨ (0x08000000 ≤ k ∧ k < 0x0A000000)

/-- The cells of a value stored little-endian from a storage address (R160). -/
def littleEndian (k : Nat) (v : Word) : Width → List (Nat × Byte)
  | .byte => [(k, v.extractLsb' 0 8)]
  | .half => [(k, v.extractLsb' 0 8), (k + 1, v.extractLsb' 8 8)]
  | .word => [(k, v.extractLsb' 0 8), (k + 1, v.extractLsb' 8 8), (k + 2, v.extractLsb' 16 8), (k + 3, v.extractLsb' 24 8)]

/-- The cells a store to an address changes, by region (R172, R188-R193): an 8-bit store to palette RAM or the VRAM
background area fills the halfword, one to OAM or the VRAM object area is discarded, and BIOS, ROM and unmapped stores
are discarded. For a region with devices the list is empty. The VRAM background area of BG modes 6 and 7, which R189 does
not name, is the model's choice (log entry 21). -/
def State.storedCells (s : State) (a : Word) (w : Width) (v : Word) : List (Nat × Byte) :=
  let k := storageKey (s.region a) (w.align a)
  match s.region a, w with
  | .ewram, _ => littleEndian k v w
  | .iwram, _ => littleEndian k v w
  | .palette, .byte => littleEndian (storageKey .palette (Width.half.align a)) ((v.setWidth 8 ++ v.setWidth 8).setWidth 32) .half
  | .palette, _ => littleEndian k v w
  | .vram, .byte =>
    if vramOffset a < s.ppu.bgArea then
      littleEndian (storageKey .vram (Width.half.align a)) ((v.setWidth 8 ++ v.setWidth 8).setWidth 32) .half
    else []
  | .vram, _ => littleEndian k v w
  | .oam, .byte => []
  | .oam, _ => littleEndian k v w
  | .save, .byte => littleEndian k v .byte
  | _, _ => []

/-- A store that memory alone takes: it misses the two slots of R205, and it goes to no device register, EEPROM port,
GPIO window or Flash, nor wide to save memory. -/
def State.plainStore (s : State) (a : Word) (w : Width) : Bool :=
  !s.storeWindow.hit (w.align a) w.bytes &&
  match s.region a with
  | .io => false
  | .save => w == .byte && s.save.backend == .sram
  | .rom0 | .rom1 | .rom2 => !s.isEepromPort (w.align a) && !(slot a == 0x08 && inGpioWindow (romOffset (w.align a)))
  | _ => true

/-- Plain stores of all of a list of addresses. -/
def State.plainStores (s : State) (as : List Word) : Bool := as.all fun a => s.plainStore a .word

/-- n word addresses from one on. -/
def wordAddresses : Nat → Word → List Word
  | 0, _ => []
  | n + 1, a => a :: wordAddresses n (a + 4#32)

/-- The cells of a block store, later words first so that they count (R543). -/
def State.blockCells (s : State) : List Word → Word → List (Nat × Byte)
  | [], _ => []
  | v :: vs, a => s.blockCells vs (a + 4#32) ++ s.storedCells a .word v

/-- The value of a width made of bytes, the first the lowest (R160), zero-extended. -/
def lanes (b0 b1 b2 b3 : Byte) : Width → Word
  | .byte => b0.setWidth 32
  | .half => (b1 ++ b0).setWidth 32
  | .word => b3 ++ b2 ++ b1 ++ b0

/-- What an access past the end of an image reads (R172), zero-extended. -/
def pastEnd : Width → Word
  | .byte => Config.sentinel8.setWidth 32
  | .half => Config.sentinel16.setWidth 32
  | .word => Config.sentinel32

/-- An address whose bytes a read takes from memory alone: EWRAM, IWRAM, palette, VRAM or OAM. -/
def State.ramAddress (s : State) (a : Word) : Bool :=
  match s.region a with
  | .ewram | .iwram | .palette | .vram | .oam => true
  | _ => false

/-- The byte of memory an address of that kind names. -/
def State.byteAt (s : State) (a : Word) : Byte := s.mem.byte (storageKey (s.region a) a)

/-- The word a word-aligned read of that kind gives (R160). -/
def State.wordAt (s : State) (a : Word) : Word :=
  let k := storageKey (s.region a) (Width.word.align a)
  s.mem.byte (k + 3) ++ s.mem.byte (k + 2) ++ s.mem.byte (k + 1) ++ s.mem.byte k

/-- The halfword a halfword-aligned read of that kind gives (R160). -/
def State.halfAt (s : State) (a : Word) : Half :=
  let k := storageKey (s.region a) (Width.half.align a)
  s.mem.byte (k + 1) ++ s.mem.byte k

/-! ### Values of loads and the shapes of statements -/

/-- Rotate right by whole bytes (R163). -/
def rotateBytes (v : Word) (n : Nat) : Word := v.rotateRight (8 * n)

/-- The word LDR gives at any alignment (R163, R500). -/
def State.wordValue (s : State) (a : Word) : Word := rotateBytes (s.wordAt a) (a.toNat % 4)

/-- The byte LDRB gives (R502). -/
def State.byteValue (s : State) (a : Word) : Word := (s.byteAt a).setWidth 32

/-- The value LDRH gives at any alignment (R163, R521). -/
def State.halfValue (s : State) (a : Word) : Word := rotateBytes ((s.halfAt a).setWidth 32) (a.toNat % 2)

/-- The value LDRSB gives (R522). -/
def State.signedByteValue (s : State) (a : Word) : Word := (s.byteAt a).signExtend 32

/-- The value LDRSH gives; an odd address is a signed byte (R523). -/
def State.signedHalfValue (s : State) (a : Word) : Word :=
  if a.toNat % 2 = 1 then s.signedByteValue a else (s.halfAt a).signExtend 32

/-- What a load makes of the unit it reads. -/
inductive LoadForm where
  | word
  | byte
  | half
  | signedByte
  | signedHalf
deriving DecidableEq, Repr

/-- The value a load form gives at an address in RAM. -/
def State.ramValue (s : State) : LoadForm → Word → Word
  | .word => s.wordValue
  | .byte => s.byteValue
  | .half => s.halfValue
  | .signedByte => s.signedByteValue
  | .signedHalf => s.signedHalfValue

/-- The value a load form gives through the bus, at any address: the value of its read (R170), which is rotated already
(R163), or its low byte or halfword extended by its sign (R522, R523). -/
def State.busValue (s : State) : LoadForm → Word → Word
  | .word, a => (s.memRead a .word false).1
  | .byte, a => (s.memRead a .byte false).1
  | .half, a => (s.memRead a .half false).1
  | .signedByte, a => ((s.memRead a .byte false).1.setWidth 8).signExtend 32
  | .signedHalf, a =>
    if a.toNat % 2 = 1 then ((s.memRead a .byte false).1.setWidth 8).signExtend 32
    else ((s.memRead a .half false).1.setWidth 16).signExtend 32

/-- The machine is in ARM state and the condition passes. -/
def ArmRuns (c : Cond) (s : State) : Prop := s.cpu.cpsr.t = false ∧ condHolds c s.cpu.cpsr = true

/-- The write-back an access makes. -/
def Access.baseWrite (x : Access) (s : State) (rn : RegNo) : List (Fin 30 × Word) :=
  if x.wb then [(s.here rn, x.ao)] else []

/-- The value a load reads: what the bus gives at the address (R170) after the code access, extended as the form says;
where the address is in RAM, the bytes of memory. -/
def State.loads (s : State) (f : LoadForm) (a v : Word) : Prop :=
  v = (s.billCode true).busValue f a ∧ (s.ramAddress a = true → v = s.ramValue f a)

/-- An instruction completes as a load: the destination takes the value read; the base is written back if the form does;
flags, other registers, memory and devices stay. -/
def LoadsTo (i : Instr) (s : State) (x : Access) (rn rd : RegNo) (f : LoadForm) : Prop :=
  Completes (exec i s) fun t => ∃ v : Word,
    CpuEffect s t ((s.here rd, v) :: x.baseWrite s rn) s.cpu.cpsr s.following ∧ OnlyCpuRead s t ∧ SameBytes s t ∧
    s.loads f x.addr v

/-- An instruction completes as a store of the low bytes of a register at an address: exactly the cells of that store
change, and the base if the form writes it back. -/
def StoresTo (i : Instr) (s : State) (x : Access) (rn : RegNo) (w : Width) (v : Word) : Prop :=
  Completes (exec i s) fun t =>
    CpuEffect s t (x.baseWrite s rn) s.cpu.cpsr s.following ∧ OnlyCpuMem s t ∧
    WroteBytes s t (s.storedCells x.addr w v)

/-- The six arithmetic operations on Rn = x and operand2 = y under status p, each with its result and its flags
(R408, R412-R417). -/
def arithmeticOps (c : Cond) (sf : Bool) (rn rd : RegNo) (op2 : Operand2) (x y : Word) (p : Psr) :
    List (Instr × Word × Psr) :=
  [(.sub c sf rn rd op2, x - y, diffFlags p x y false), (.rsb c sf rn rd op2, y - x, diffFlags p y x false),
    (.add c sf rn rd op2, x + y, sumFlags p x y false),
    (.adc c sf rn rd op2, x + y + (BitVec.ofBool p.c).setWidth 32, sumFlags p x y p.c),
    (.sbc c sf rn rd op2, x - y - (BitVec.ofBool (!p.c)).setWidth 32, diffFlags p x y (!p.c)),
    (.rsc c sf rn rd op2, y - x - (BitVec.ofBool (!p.c)).setWidth 32, diffFlags p y x (!p.c))]

/-- The six logical operations on Rn = x and operand2 = y, each with its result (R410, R411, R422-R425). -/
def logicalOps (c : Cond) (sf : Bool) (rn rd : RegNo) (op2 : Operand2) (x y : Word) : List (Instr × Word) :=
  [(.and c sf rn rd op2, x &&& y), (.eor c sf rn rd op2, x ^^^ y), (.orr c sf rn rd op2, x ||| y),
    (.mov c sf rn rd op2, y), (.bic c sf rn rd op2, x &&& ~~~y), (.mvn c sf rn rd op2, ~~~y)]

/-- The twelve data-processing operations that write Rd, with their results. -/
def resultOps (c : Cond) (sf : Bool) (rn rd : RegNo) (op2 : Operand2) (x y : Word) (p : Psr) : List (Instr × Word) :=
  (arithmeticOps c sf rn rd op2 x y p).map (fun o => (o.1, o.2.1)) ++ logicalOps c sf rn rd op2 x y

/-- N, Z, C of a logical result with a carry (R407). -/
def logicalFlags (p : Psr) (v : Word) (carry : Bool) : Psr := { signZero p v with c := carry }

/-- The four comparisons of Rn = x with operand2 = y under status p, each with its flags (R418-R421). -/
def compareOps (c : Cond) (rn ignored : RegNo) (op2 : Operand2) (x y : Word) (carry : Bool) (p : Psr) :
    List (Instr × Psr) :=
  [(.tst c rn ignored op2, logicalFlags p (x &&& y) carry), (.teq c rn ignored op2, logicalFlags p (x ^^^ y) carry),
    (.cmp c rn ignored op2, diffFlags p x y false), (.cmn c rn ignored op2, sumFlags p x y false)]

/-- The cost of the code access S(P) (R1201). -/
def State.codeCost (s : State) : Nat := s.cost s.prefetch (codeWidth s.cpu.cpsr.t) true

/-- The cost of the refill N(T), S(T + w') at a state's program counter (R1201). -/
def State.refillCost (t : State) : Nat :=
  t.cost t.cpu.pc (codeWidth t.cpu.cpsr.t) false + t.cost (t.cpu.pc + codeStep t.cpu.cpsr.t) (codeWidth t.cpu.cpsr.t) true

/-- The extra internal cycle of a register-specified shift (R1201). -/
def shiftCycles : Operand2 → Nat
  | .regReg .. => 1
  | _ => 0

/-- The effect of an instruction that may also draw a free value. -/
def EffectDraws (s t : State) (ds : List (Fin 30 × Word)) (p : Psr) (pc : Word) : Prop :=
  CpuEffect s t ds p pc ∧ OnlyCpuDraws s t ∧ SameBytes s t

/-- N and Z of a 64-bit result, by its number (R467). -/
def signZeroLong (p : Psr) (v : BitVec 64) : Psr := { p with n := decide (2 ^ 63 ≤ v.toNat), z := decide (v.toNat = 0) }

/-- The operands R466 forbids to MUL and MLA; rs lists every register operand but Rd and Rm. -/
def MulForbidden (rd rm : RegNo) (rs : List RegNo) : Prop := rd = 15#4 ∨ rm = 15#4 ∨ 15#4 ∈ rs ∨ rd = rm

/-- The operands R466 forbids to a long multiply. -/
def MulLongForbidden (rdHi rdLo rs rm : RegNo) : Prop :=
  rdHi = 15#4 ∨ rdLo = 15#4 ∨ rs = 15#4 ∨ rm = 15#4 ∨ rdHi = rdLo ∨ rdHi = rm ∨ rdLo = rm

/-- The operands R509 forbids to a single transfer; `load`, and `byte` for the byte loads. -/
def SingleForbidden (load byte : Bool) (p w : Bool) (rn rd : RegNo) (off : Offset) : Prop :=
  (∃ amount ty, off = .reg amount ty 15#4) ∨ ((p = false ∨ w = true) ∧ rn = 15#4) ∨
  (load = true ∧ (p = false ∨ w = true) ∧ rn = rd) ∨ (load = true ∧ byte = true ∧ rd = 15#4)

/-- The operands R525 forbids to a halfword or signed transfer; `rm` is none for an immediate offset. -/
def HalfForbidden (load : Bool) (p w : Bool) (rn rd : RegNo) (rm : Option RegNo) : Prop :=
  rd = 15#4 ∨ rm = some 15#4 ∨ ((p = false ∨ w = true) ∧ rn = 15#4) ∨ (load = true ∧ (p = false ∨ w = true) ∧ rn = rd) ∨
  (p = false ∧ w = true)

/-- The forms R545 forbids to LDM and STM alike: an empty list, r15 as base, write-back with the user bank, and S in a
mode without an SPSR. -/
def BlockForbidden (s : State) (user sBit w : Bool) (rn : RegNo) (list : BitVec 16) : Prop :=
  list = 0#16 ∨ rn = 15#4 ∨ (user = true ∧ w = true) ∨ (sBit = true ∧ spsrIndex s.cpu.cpsr.mode = none)

/-- The forms R545 and R542 forbid to LDM. -/
def LoadBlockForbidden (s : State) (sBit w : Bool) (rn : RegNo) (list : BitVec 16) : Prop :=
  BlockForbidden s (sBit && !list.getLsbD 15) sBit w rn list ∨ (w = true ∧ list.getLsbD rn.toNat = true) ∨
  (sBit = true ∧ list.getLsbD 15 = true ∧ ∃ q, s.spsr = some q ∧ legalMode q.mode = false)

/-- The forms R545 forbids to STM: with write-back the base may be listed only as the lowest. -/
def StoreBlockForbidden (s : State) (sBit w : Bool) (rn : RegNo) (list : BitVec 16) : Prop :=
  BlockForbidden s sBit sBit w rn list ∨
  (w = true ∧ list.getLsbD rn.toNat = true ∧ ∃ k, k < rn.toNat ∧ list.getLsbD k = true)

/-- The registers a block load writes in mode m: every listed one but r15, with its word. -/
def loadedRegs (m : BitVec 5) (regs : List RegNo) (vs : List Word) : List (Fin 30 × Word) :=
  ((regs.zip vs).filter fun e => e.1 != 15#4).map fun e => (phys m e.1, e.2)

/-- The words a block load gives are those of memory wherever an address is in RAM (R173). -/
def State.wordsAt (s : State) (a : Word) (vs : List Word) : Prop :=
  ∀ k : Nat, k < vs.length → s.ramAddress (a + fourTimes k) = true → vs[k]? = some (s.wordAt (a + fourTimes k))

/-- The words a block load reads, in order: each through the bus at its aligned address, in the state the reads before it
leave, the first access with the given sequentiality and the rest sequential (R170, R173, R544). -/
def State.readsWords : List Word → Word → Bool → State → Prop
  | [], _, _, _ => True
  | v :: vs, a, seq, s =>
    v = (s.memRead (Width.word.align a) .word seq).1 ∧
    (s.memRead (Width.word.align a) .word seq).2.readsWords vs (a + 4#32) true

/-- The words a block load gives its registers: what the bus gives after the code access, which for addresses in RAM are
the words of memory. -/
def State.loadsWords (s : State) (a : Word) (vs : List Word) : Prop :=
  (s.billCode true).readsWords vs a false ∧ s.wordsAt a vs

/-- The value STM stores for a register (R543): the base as it was, pc + 12 for r15, the User bank's or the current
mode's register. -/
def State.storedReg (s : State) (user : Bool) (rn i : RegNo) : Word :=
  if i = rn then s.regOf s.cpu.cpsr.mode rn
  else if i = 15#4 then s.cpu.pc + 12#32
  else s.regOf (if user then modeUsr else s.cpu.cpsr.mode) i

/-- A Thumb load of a low register. -/
def LoadsLow (i : Instr) (s : State) (a : Word) (rd : LowReg) (f : LoadForm) : Prop :=
  LoadsTo i s ⟨a, a, false⟩ 0#4 rd.up f

/-- A Thumb store of a low register. -/
def StoresLow (i : Instr) (s : State) (a : Word) (rd : LowReg) (w : Width) : Prop :=
  StoresTo i s ⟨a, a, false⟩ 0#4 w (s.low rd)

/-- A store through the bus, whatever it reaches: the hazard of R205 faults with the code access and the store billed
and nothing stored, a fault of the access ends the step, and otherwise the access has its effect, with the write-back. -/
def StoreGoesThrough (i : Instr) (s : State) (x : Access) (rn : RegNo) (w : Width) (v : Word) : Prop :=
  (s.storeWindow.hit (w.align x.addr) w.bytes = true →
    exec i s = .fault (((s.billCode false).billAccess x.addr w false).raise (.selfModifyHazard s.cpu.pc x.addr))) ∧
  (∀ f, (s.billCode false).memWrite x.addr w v false = .error f → exec i s = .fault f) ∧
  (∀ u, (s.billCode false).memWrite x.addr w v false = .ok u →
    Completes (exec i s) fun t =>
      CpuEffect s t (x.baseWrite s rn) s.cpu.cpsr s.following ∧ t = { u with cpu := t.cpu })

/-- ExceptionEntry(m, vector, ret) (R830), k the place of SPSR_m. -/
def EntersException (s t : State) (m : BitVec 5) (k : Fin 5) (vector ret : Word) : Prop :=
  Wrote s t [(phys m 14#4, ret)] ∧ t.cpu.cpsr = { s.cpu.cpsr with mode := m, t := false, i := true } ∧
  t.cpu.pc = vector ∧ WroteSpsr s t k s.cpu.cpsr ∧ OnlyCpu s t ∧ SameBytes s t

/-- A write that reaches one I/O register: the access completes and changes, beside the counter and the instruction
cache, what the relation says. -/
def IoWrite (s : State) (a : Word) (w : Width) (v : Word) (rel : State → State → Prop) : Prop :=
  s.storeWindow.hit a w.bytes = false → s.dma.held = [] →
    ∀ seq, ∃ t, s.memWrite a w v seq = .ok t ∧ rel { s with cycles := t.cycles, icache := t.icache } t

/-- The Thumb additions and subtractions, each with its destination, result and flags (R605-R608, R612, R613, R625,
R626, R629). -/
def thumbArithmetic (s : State) (rn rs rd : LowReg) (imm3 : BitVec 3) (imm8 : BitVec 8) :
    List (Instr × LowReg × Word × Psr) :=
  let p := s.cpu.cpsr
  [(.tAddReg rn rs rd, rd, s.low rs + s.low rn, sumFlags p (s.low rs) (s.low rn) false),
    (.tSubReg rn rs rd, rd, s.low rs - s.low rn, diffFlags p (s.low rs) (s.low rn) false),
    (.tAddImm3 imm3 rs rd, rd, s.low rs + imm3.setWidth 32, sumFlags p (s.low rs) (imm3.setWidth 32) false),
    (.tSubImm3 imm3 rs rd, rd, s.low rs - imm3.setWidth 32, diffFlags p (s.low rs) (imm3.setWidth 32) false),
    (.tAddImm8 rd imm8, rd, s.low rd + imm8.setWidth 32, sumFlags p (s.low rd) (imm8.setWidth 32) false),
    (.tSubImm8 rd imm8, rd, s.low rd - imm8.setWidth 32, diffFlags p (s.low rd) (imm8.setWidth 32) false),
    (.tAdc rs rd, rd, s.low rd + s.low rs + (BitVec.ofBool p.c).setWidth 32, sumFlags p (s.low rd) (s.low rs) p.c),
    (.tSbc rs rd, rd, s.low rd - s.low rs - (BitVec.ofBool (!p.c)).setWidth 32,
      diffFlags p (s.low rd) (s.low rs) (!p.c)),
    (.tNeg rs rd, rd, 0#32 - s.low rs, diffFlags p 0#32 (s.low rs) false)]

/-- The Thumb logical operations, each with its destination and result (R610, R620, R621, R632, R634, R635). -/
def thumbLogical (s : State) (rs rd : LowReg) (imm8 : BitVec 8) : List (Instr × LowReg × Word) :=
  [(.tMovImm8 rd imm8, rd, imm8.setWidth 32), (.tAnd rs rd, rd, s.low rd &&& s.low rs),
    (.tEor rs rd, rd, s.low rd ^^^ s.low rs), (.tOrr rs rd, rd, s.low rd ||| s.low rs),
    (.tBic rs rd, rd, s.low rd &&& ~~~s.low rs), (.tMvn rs rd, rd, ~~~s.low rs)]

/-- The Thumb comparisons of low registers, each with its flags (R611, R628, R630, R631). -/
def thumbCompare (s : State) (rs rd : LowReg) (imm8 : BitVec 8) : List (Instr × Psr) :=
  let p := s.cpu.cpsr
  [(.tCmpImm8 rd imm8, diffFlags p (s.low rd) (imm8.setWidth 32) false), (.tTst rs rd, signZero p (s.low rd &&& s.low rs)),
    (.tCmpReg rs rd, diffFlags p (s.low rd) (s.low rs) false), (.tCmn rs rd, sumFlags p (s.low rd) (s.low rs) false)]

/-- The Thumb shifts, each with its destination, what the shifter gives and its internal cycles (R600-R602,
R622-R624, R627). -/
def thumbShifts (s : State) (off : BitVec 5) (rs rd : LowReg) : List (Instr × Shifted × Nat) :=
  let c := s.cpu.cpsr.c
  let n := (s.low rs).toNat % 256
  [(.tLslImm off rs rd, shiftImm .lsl off (s.low rs) c, 0), (.tLsrImm off rs rd, shiftImm .lsr off (s.low rs) c, 0),
    (.tAsrImm off rs rd, shiftImm .asr off (s.low rs) c, 0), (.tLslReg rs rd, shiftReg .lsl n (s.low rd) c, 1),
    (.tLsrReg rs rd, shiftReg .lsr n (s.low rd) c, 1), (.tAsrReg rs rd, shiftReg .asr n (s.low rd) c, 1),
    (.tRorReg rs rd, shiftReg .ror n (s.low rd) c, 1)]

/-- The Thumb loads of one register, each with its address and its form (R670, R677, R678, R681-R683, R686,
R688, R691, R696). -/
def thumbLoads (s : State) (ro rb rd : LowReg) (off : BitVec 5) (imm8 : BitVec 8) :
    List (Instr × Word × LoadForm) :=
  let a := s.low rb + s.low ro
  let n := off.setWidth 32
  let m := imm8.setWidth 32
  [(.tLdrPc rd imm8, ((s.cpu.pc + 4#32) &&& 0xFFFFFFFC#32) + 4#32 * m, .word), (.tLdrReg ro rb rd, a, .word),
    (.tLdrbReg ro rb rd, a, .byte), (.tLdrhReg ro rb rd, a, .half), (.tLdsbReg ro rb rd, a, .signedByte),
    (.tLdshReg ro rb rd, a, .signedHalf), (.tLdrImm off rb rd, s.low rb + 4#32 * n, .word),
    (.tLdrbImm off rb rd, s.low rb + n, .byte), (.tLdrhImm off rb rd, s.low rb + 2#32 * n, .half),
    (.tLdrSp rd imm8, s.regOf s.cpu.cpsr.mode 13#4 + 4#32 * m, .word)]

/-- The Thumb stores of one register, each with its address and width (R675, R676, R680, R685, R687, R690, R695). -/
def thumbStores (s : State) (ro rb rd : LowReg) (off : BitVec 5) (imm8 : BitVec 8) : List (Instr × Word × Width) :=
  let a := s.low rb + s.low ro
  let n := off.setWidth 32
  [(.tStrReg ro rb rd, a, .word), (.tStrbReg ro rb rd, a, .byte), (.tStrhReg ro rb rd, a, .half),
    (.tStrImm off rb rd, s.low rb + 4#32 * n, .word), (.tStrbImm off rb rd, s.low rb + n, .byte),
    (.tStrhImm off rb rd, s.low rb + 2#32 * n, .half),
    (.tStrSp rd imm8, s.regOf s.cpu.cpsr.mode 13#4 + 4#32 * imm8.setWidth 32, .word)]

/-- The ARM stores of one register, each with its addressing, its width and whether its operands are forbidden
(R501, R503, R505, R507, R520). -/
def armStores (s : State) (c : Cond) (p u w : Bool) (rn rd rm : RegNo) (off : Offset) (imm8 : BitVec 8) :
    List (Instr × Access × Width × Prop) :=
  let x := s.access p u w rn (s.offset off)
  let y := s.access false u true rn (s.offset off)
  [(.str c p u w rn rd off, x, .word, SingleForbidden false false p w rn rd off),
    (.strb c p u w rn rd off, x, .byte, SingleForbidden false false p w rn rd off),
    (.strt c u rn rd off, y, .word, SingleForbidden false false false true rn rd off),
    (.strbt c u rn rd off, y, .byte, SingleForbidden false false false true rn rd off),
    (.strhReg c p u w rn rd rm, s.access p u w rn (s.reg 8#32 rm), .half, HalfForbidden false p w rn rd (some rm)),
    (.strhImm c p u w rn rd imm8, s.access p u w rn (imm8.setWidth 32), .half, HalfForbidden false p w rn rd none)]

/-- The ARM loads of one register, each with its addressing, its form and whether its operands are forbidden
(R500, R502, R504, R506, R521-R523). -/
def armLoads (s : State) (c : Cond) (p u w : Bool) (rn rd rm : RegNo) (off : Offset) (imm8 : BitVec 8) :
    List (Instr × Access × LoadForm × Prop) :=
  let x := s.access p u w rn (s.offset off)
  let y := s.access false u true rn (s.offset off)
  let r := s.access p u w rn (s.reg 8#32 rm)
  let i := s.access p u w rn (imm8.setWidth 32)
  [(.ldr c p u w rn rd off, x, .word, SingleForbidden true false p w rn rd off),
    (.ldrb c p u w rn rd off, x, .byte, SingleForbidden true true p w rn rd off),
    (.ldrt c u rn rd off, y, .word, SingleForbidden true false false true rn rd off),
    (.ldrbt c u rn rd off, y, .byte, SingleForbidden true true false true rn rd off),
    (.ldrhReg c p u w rn rd rm, r, .half, HalfForbidden true p w rn rd (some rm)),
    (.ldrsbReg c p u w rn rd rm, r, .signedByte, HalfForbidden true p w rn rd (some rm)),
    (.ldrshReg c p u w rn rd rm, r, .signedHalf, HalfForbidden true p w rn rd (some rm)),
    (.ldrhImm c p u w rn rd imm8, i, .half, HalfForbidden true p w rn rd none),
    (.ldrsbImm c p u w rn rd imm8, i, .signedByte, HalfForbidden true p w rn rd none),
    (.ldrshImm c p u w rn rd imm8, i, .signedHalf, HalfForbidden true p w rn rd none)]

/-- An instruction ends in Fault(Unpredictable) at the executing address, with its own word (D4), in the state it
executed in, with the record kept (R25). -/
def FaultsUnpredictable (i : Instr) (s : State) : Prop :=
  exec i s = .fault (.unpredictable s.cpu.pc (encode i).word
    { s with fault := some (.unpredictable s.cpu.pc (encode i).word) })

/-- An instruction ends in Fault(IllegalInstruction) at the executing address, with its own word (R368), in the state it
executed in, with the record kept (R25). -/
def FaultsIllegal (i : Instr) (s : State) : Prop :=
  exec i s = .fault (.illegalInstruction s.cpu.pc (encode i).word
    { s with fault := some (.illegalInstruction s.cpu.pc (encode i).word) })

/-! ### The invariant -/

/-- A program counter aligned for its state (R60). -/
def pcAligned (thumb : Bool) (pc : Word) : Bool := if thumb then pc.toNat % 2 == 0 else pc.toNat % 4 == 0

/-- What holds of the devices and memory in every state a run reaches. -/
structure DevicesOk (s : State) : Prop where
  /-- Memory has its canonical form. -/
  mem : s.mem.wf = true
  /-- The line counter is a line (R952). -/
  vcount : s.ppu.vcount < 228
  /-- DISPCNT bit 3 reads 0 (R960). -/
  dispcnt : s.ppu.dispcnt.getLsbD 3 = false
  /-- WAITCNT bits 13 and 15 read 0 (R183). -/
  waitcnt : s.waitcnt.getLsbD 13 = false ∧ s.waitcnt.getLsbD 15 = false
  /-- A FIFO holds at most 32 bytes (R1064). -/
  fifoA : s.apu.fifoA.length ≤ 32
  /-- The same of FIFO B. -/
  fifoB : s.apu.fifoB.length ≤ 32
  /-- A timer's counter is 16 bits (R921). -/
  timers : ∀ n : Fin 4, (s.timer n).count < 0x10000 ∧ (s.timer n).start < 0x10000

/-- The invariant of the machine between steps. -/
structure Inv (s : State) : Prop where
  /-- The mode is one of the seven (R52). -/
  mode : legalMode s.cpu.cpsr.mode = true
  /-- The program counter is aligned for the encoding mode (R60). -/
  pc : pcAligned s.cpu.cpsr.t s.cpu.pc = true
  /-- No DMA trigger waits and no transfer runs between steps (R880). -/
  held : s.dma.held = []
  /-- The same of the running transfer. -/
  running : s.dma.running = none
  /-- The devices and memory. -/
  devices : DevicesOk s

/-- No event is due (R852). -/
def State.quiet (s : State) : Prop := ∀ src t, s.nextOf src = some t → s.cycles < t

end Sys2Proof.Machine
end

