-- ==== Sys2Proof/Certificates/Slice0/Obligations.lean ====
section
/-! DEFINITION. The statements of this row, each a claim about the model taken from the rules of spec/. -/

open Sys2Proof Sys2Proof.Machine

/-! ### Encoding -/

/-- Decoding the encoding of a well-formed instruction gives it back, in both encoding modes (30_encoding.md). -/
def Obligations.EncodeThenDecode : Prop := ∀ i : Instr, i.wellFormed = true → (encode i).decode = .ok i

/-- A word that decodes is the encoding of the instruction it decodes to, which is well-formed: every word has one
meaning and no bit of it is dropped (R254, R280). -/
def Obligations.DecodeThenEncode : Prop :=
  (∀ (w : Word) (i : Instr), decodeArm w = .ok i → encode i = .arm w ∧ i.wellFormed = true) ∧
  (∀ (h : Half) (i : Instr), decodeThumb h = .ok i → encode i = .thumb h ∧ i.wellFormed = true)

/-- Words the spec writes out decode to the instructions it names (the examples of 41 to 47). -/
def Obligations.SpecWordsDecode : Prop :=
  decodeArm 0xE1810202#32 = .ok (.orr .al false 1#4 0#4 (.regImm 4#5 .lsl 2#4)) ∧
  decodeArm 0xE25EF004#32 = .ok (.sub .al true 14#4 15#4 (.imm 0#4 4#8)) ∧
  decodeArm 0xE0203291#32 = .ok (.mla .al false 0#4 3#4 2#4 1#4) ∧
  decodeArm 0xE5310004#32 = .ok (.ldr .al true false true 1#4 0#4 (.imm 4#12)) ∧
  decodeArm 0xE92D4003#32 = .ok (.stm .al true false false true 13#4 0x4003#16) ∧
  decodeArm 0xE321F012#32 = .ok (.msrCpsrImm .al 1#4 0#4 0x12#8) ∧
  decodeArm 0x0A000002#32 = .ok (.b .eq 2#24) ∧
  decodeThumb 0x1A88#16 = .ok (.tSubReg 2#3 1#3 0#3) ∧
  decodeThumb 0x44F8#16 = .ok (.tAddHi 15#4 8#4) ∧
  decodeThumb 0xB503#16 = .ok (.tPush true 0x03#8) ∧
  decodeThumb 0xD1FC#16 = .ok (.tBcond .ne 0xFC#8) ∧
  decodeThumb 0xDF05#16 = .ok (.tSwi 5#8)

/-- Reserved words are rejected: an ARM word with condition field 1111 (R253), a Thumb BX with its H1 bit or a low bit
set (R285), and every ARM word with bits 27:25 = 000 and 7:4 = 1001 that is no multiply, long multiply or swap: a swap
with its should-be-zero field set is unpredictable (R272), every other illegal (R254). -/
def Obligations.ReservedWordsAreRejected : Prop :=
  (∀ w : Word, w.extractLsb' 28 4 = 15#4 → decodeArm w = .error .unpredictable) ∧
  (∀ h : Half, h.extractLsb' 8 8 = 0x47#8 → (h.extractLsb' 7 1 ≠ 0#1 ∨ h.extractLsb' 0 3 ≠ 0#3) →
    decodeThumb h = .error .unpredictable) ∧
  (∀ w : Word, w.extractLsb' 28 4 ≠ 15#4 → w.extractLsb' 25 3 = 0#3 → w.extractLsb' 4 4 = 0b1001#4 →
    w &&& 0x0FC000F0#32 ≠ 0x00000090#32 → w &&& 0x0F8000F0#32 ≠ 0x00800090#32 → w &&& 0x0FB00FF0#32 ≠ 0x01000090#32 →
    decodeArm w = .error (if w &&& 0x0FB000F0#32 = 0x01000090#32 then .unpredictable else .illegal))

/-! ### The step -/

/-- What a step is: a machine with a fault record or stopped has none; a running machine that takes no interrupt
executes the instruction its fetched value decodes to, at the state the fetch leaves, and then makes the event pass,
unless it executes, passes the restrictions its rule checks first, and reads a register marked unwritten: then it ends in
the fault of R369, with nothing but the record written (which of several such registers it names, that a restore is a
read of the SPSR, and that those restrictions come first also in rules that do not order them as R409, R466 and R545
do, is the model's reading, log entry 33); a value that decodes to nothing ends in the fault of R368 or D4, with the
record kept in the state it leaves (R25, R350, R353, R850); that this is the state of the fetch's own read is the model's
reading (log entry 9). -/
def Obligations.StepRunsDecodedInstruction : Prop :=
  (∀ (s : State) (r : FaultRecord), s.fault = some r → step s = .fault (s.raise r)) ∧
  (∀ s : State, s.fault = none → s.stopped = true → step s = .fault (.stopped s)) ∧
  (∀ s : State, s.live = true → s.halted = false → (s.irqLine && !s.cpu.cpsr.i) = false →
    (∀ i, decodeFetched s.cpu.cpsr.t s.fetch.1 = .ok i →
      let u := s.fetched
      let reading := (∀ c, i.cond = some c → condHolds c u.cpu.cpsr = true) ∧ u.forbids i = false
      ((reading → ∀ r ∈ u.reads i, u.isWritten r = true) → step s = afterCpuStep (exec i u)) ∧
      (∀ r ∈ u.reads i, reading → u.isWritten r = false → ∃ q ∈ u.reads i, u.isWritten q = false ∧
        step s = .fault (.unwrittenRegister s.cpu.pc q
          { u with fault := some (.unwrittenRegister s.cpu.pc q) }))) ∧
    (decodeFetched s.cpu.cpsr.t s.fetch.1 = .error .illegal →
      step s = .fault (.illegalInstruction s.cpu.pc s.fetch.1
        { s.fetch.2 with fault := some (.illegalInstruction s.cpu.pc s.fetch.1) })) ∧
    (decodeFetched s.cpu.cpsr.t s.fetch.1 = .error .unpredictable →
      step s = .fault (.unpredictable s.cpu.pc s.fetch.1
        { s.fetch.2 with fault := some (.unpredictable s.cpu.pc s.fetch.1) })))

/-- What the fetch reads (R352, R185, R191, R193): code in RAM, the BIOS image and the cartridge ROM are the bytes of
memory, past the end of an image is the sentinel (a halfword that straddles the end, log entry 15, included), unmapped
code is a draw; and it changes only the instruction cache, the draws counter and the EEPROM's read position. -/
def Obligations.FetchReadsCode : Prop :=
  ∀ s : State, pcAligned s.cpu.cpsr.t s.cpu.pc = true →
    let width := codeWidth s.cpu.cpsr.t
    let code := fun k : Nat => if s.cpu.cpsr.t then (s.mem.byte (k + 1) ++ s.mem.byte k).setWidth 32
      else s.mem.byte (k + 3) ++ s.mem.byte (k + 2) ++ s.mem.byte (k + 1) ++ s.mem.byte k
    let past := if s.cpu.cpsr.t then Config.sentinel16.setWidth 32 else Config.sentinel32
    let free := if s.cpu.cpsr.t then Config.draw s.draws &&& 0xFFFF#32 else Config.draw s.draws
    let rom := s.cpu.pc.toNat % 0x2000000
    (s.ramAddress s.cpu.pc = true → s.fetch.1 = code (storageKey (s.region s.cpu.pc) s.cpu.pc)) ∧
    (s.region s.cpu.pc = .bios → s.fetch.1 =
      if s.cpu.pc.toNat % 0x1000000 + width.bytes ≤ s.biosLen then code (s.cpu.pc.toNat % 0x1000000) else past) ∧
    (s.region s.cpu.pc ∈ [Region.rom0, .rom1, .rom2] → s.isEepromPort s.cpu.pc = false → s.gpio.readable = false →
      s.fetch.1 = if rom + width.bytes ≤ s.romLen then code (0x08000000 + rom) else past) ∧
    (s.region s.cpu.pc = .unmapped → s.fetch.1 = free) ∧
    s.fetched = { s with
      draws := s.fetched.draws, icache := s.fetched.icache, save := { s.save with eeprom := s.fetched.save.eeprom } }

/-- An active IRQ line with CPSR.I = 0 is taken at the boundary, before the next instruction, and the first handler
instruction belongs to the same step (R831, R850): r14_irq is the resume address plus 4 in either state, and the entry
bills S(A) and two BIOS accesses (R1201; that S(A) comes before the two is the model's reading, and that it is a halfword
access in Thumb state the model's choice, log entry 18). -/
def Obligations.StepTakesIrq : Prop :=
  ∀ s : State, s.live = true → s.halted = false → s.irqLine = true → s.cpu.cpsr.i = false →
    step s = afterCpuStep s.enterIrq.cpuStep ∧
    EntersException s s.enterIrq modeIrq 1 0x18#32 (s.cpu.pc + 4#32) ∧
    s.enterIrq.cycles = s.cycles + s.cost s.cpu.pc (codeWidth s.cpu.cpsr.t) true + 2

/-- A step of a halted machine executes nothing: the registers stay, time reaches the next event, and the machine is
halted afterwards exactly if no enabled interrupt is pending, whatever IME and CPSR.I hold (R840, R850). -/
def Obligations.HaltedStepWaits : Prop :=
  ∀ s t : State, s.live = true → s.halted = true → step s = .next t →
    t.cpu = s.cpu ∧ (t.halted = true ↔ t.irq.ie &&& t.irq.ifl = 0#14) ∧
    ∃ src n, s.nextOf src = some n ∧ (∀ src' n', s.nextOf src' = some n' → n ≤ n') ∧ max s.cycles n ≤ t.cycles

/-- Every step keeps the invariant: the mode is legal, the program counter aligned for its state, no DMA is pending,
memory canonical, and the device registers within their fields (R52, R60, R183, R880, R921, R952, R960, R1064). -/
def Obligations.StepKeepsInv : Prop := ∀ s t : State, Inv s → step s = .next t → Inv t

/-- The invariant holds at reset. -/
def Obligations.ResetHasInv : Prop := Inv State.reset

/-- No step writes a byte of the BIOS or the cartridge ROM image, changes the images' lengths, the parameters of the run
or the kind of savedata backend, turns the cycle counter back, or takes the written mark from a register or SPSR (R80, R91, R171,
R1151). -/
def Obligations.StepKeepsReadOnlyState : Prop :=
  ∀ s t : State, step s = .next t →
    (∀ k, readOnlyKey k → t.mem.byte k = s.mem.byte k) ∧ t.params = s.params ∧ t.biosLen = s.biosLen ∧
    t.romLen = s.romLen ∧ t.save.backend = s.save.backend ∧ s.cycles ≤ t.cycles ∧ t.fault = none ∧
    (∀ r : StoredReg, s.isWritten r = true → t.isWritten r = true)

/-- After every step no event is due: each source's timestamp lies later than the counter (R852). -/
def Obligations.NoEventDueAfterStep : Prop := ∀ s t : State, step s = .next t → t.quiet

/-- An instruction leaves User mode only by taking the software interrupt (R845, R846). -/
def Obligations.UserModeLeftOnlyBySwi : Prop :=
  ∀ (i : Instr) (s t : State), s.cpu.cpsr.mode = modeUsr → exec i s = .next t →
    t.cpu.cpsr.mode = modeUsr ∨
    (t.cpu.cpsr.mode = modeSvc ∧ ((∃ c n, i = .swi c n) ∨ ∃ n, i = .tSwi n))

/-- Only the program-counter writers of R362 move the program counter elsewhere than to the next instruction, and only
they change the encoding mode (R61, R362, R364). -/
def Obligations.OnlyListedInstructionsBranch : Prop :=
  ∀ (i : Instr) (s t : State), i.writesPc = false → exec i s = .next t →
    t.cpu.pc = s.following ∧ t.cpu.cpsr.t = s.cpu.cpsr.t

/-- An ARM instruction of any row but the illegal ones, whose condition fails, does nothing but advance and bill one
sequential code access, whatever its operands (R357, R1201); that the access is at the prefetch address is the model's
reading (log entry 29). -/
def Obligations.FailedConditionOnlyAdvances : Prop :=
  ∀ (i : Instr) (c : Cond) (s : State), i.cond = some c → i.illegalRow = false → s.cpu.cpsr.t = false →
    condHolds c s.cpu.cpsr = false →
    exec i s = .next { s with
      cycles := s.cycles + s.cost (s.cpu.pc + 8#32) .word true, cpu := { s.cpu with pc := s.cpu.pc + 4#32 } }

/-- The bank view (R57): in two legal modes two names are one stored register exactly if the names are equal and the
table gives both modes that bank; a register written in one mode reads so through every name of it, and every other
name as before, and is marked written, every other mark staying (R91); an operand is the current mode's register, and r15 the program counter plus what its rule adds (R23,
R360). -/
def Obligations.RegisterBanks : Prop :=
  (∀ (m n : BitVec 5) (i j : RegNo), legalMode m = true → legalMode n = true → i ≠ 15#4 → j ≠ 15#4 →
    (phys m i = phys n j ↔ i = j ∧ (i.toNat < 8 ∨ (i.toNat ≤ 12 ∧ (m = modeFiq ↔ n = modeFiq)) ∨
      m = n ∨ (m ∈ [modeUsr, modeSys] ∧ n ∈ [modeUsr, modeSys])))) ∧
  (∀ (s : State) (m n : BitVec 5) (i j : RegNo) (v : Word), i ≠ 15#4 →
    (s.setRegOf m i v).regOf n j = if phys n j = phys m i then v else s.regOf n j) ∧
  (∀ (s : State) (m : BitVec 5) (i : RegNo) (v : Word) (r : StoredReg), i ≠ 15#4 →
    ((s.setRegOf m i v).isWritten r = true ↔ r = .general (phys m i) ∨ s.isWritten r = true)) ∧
  (∀ (s : State) (ahead : Word) (i : RegNo),
    s.reg ahead i = if i = 15#4 then s.cpu.pc + ahead else s.regOf s.cpu.cpsr.mode i)

/-! ### ARM data processing -/

/-- The operands shifted by an immediate, by exact arithmetic (R401, R402): a rotated immediate; LSL, LSR, ASR, ROR by 1
to 31; and the zero amounts, LSL #0, LSR #32, ASR #32 and RRX; the register form shifts Rm, r15 reading pc + 8 (R360),
with the carry of CPSR. -/
def Obligations.ImmediateShifts : Prop :=
  ∀ (v : Word) (c : Bool) (n : BitVec 5),
    let k := if n = 0#5 then 32 else n.toNat
    (shiftImm .lsl 0#5 v c = ⟨v, c⟩) ∧
    (n ≠ 0#5 → (shiftImm .lsl n v c).val.toNat = v.toNat * 2 ^ n.toNat % 2 ^ 32 ∧
      (shiftImm .lsl n v c).carry = decide (v.toNat * 2 ^ n.toNat / 2 ^ 32 % 2 = 1)) ∧
    (shiftImm .lsr n v c).val.toNat = v.toNat / 2 ^ k ∧
    (shiftImm .lsr n v c).carry = decide (v.toNat / 2 ^ (k - 1) % 2 = 1) ∧
    (shiftImm .asr n v c).val.toInt = v.toInt / (2 ^ k : Nat) ∧
    (shiftImm .asr n v c).carry = decide (v.toInt / (2 ^ (k - 1) : Nat) % 2 = 1) ∧
    (n ≠ 0#5 → (shiftImm .ror n v c).val.toNat = v.toNat / 2 ^ n.toNat + v.toNat % 2 ^ n.toNat * 2 ^ (32 - n.toNat) ∧
      (shiftImm .ror n v c).carry = (shiftImm .ror n v c).val.msb) ∧
    (shiftImm .ror 0#5 v c).val.toNat = v.toNat / 2 + c.toNat * 2 ^ 31 ∧
    (shiftImm .ror 0#5 v c).carry = decide (v.toNat % 2 = 1) ∧
    (∀ (s : State) (rot : BitVec 4) (imm8 : BitVec 8),
      (s.shifter (.imm rot imm8)).val.toNat =
        (if rot = 0#4 then imm8.toNat
          else imm8.toNat / 2 ^ (2 * rot.toNat) + imm8.toNat % 2 ^ (2 * rot.toNat) * 2 ^ (32 - 2 * rot.toNat)) ∧
      (s.shifter (.imm rot imm8)).carry =
        (if rot = 0#4 then s.cpu.cpsr.c else (s.shifter (.imm rot imm8)).val.msb)) ∧
    (∀ (s : State) (ty : ShiftType) (rm : RegNo),
      s.shifter (.regImm n ty rm) =
        shiftImm ty n (if rm = 15#4 then s.cpu.pc + 8#32 else s.regOf s.cpu.cpsr.mode rm) s.cpu.cpsr.c)

/-- The operands shifted by the low byte n of a register, by exact arithmetic, at every amount 0 to 255 (R403): 0 keeps
value and carry; 32 and more shift everything out; ROR turns by n modulo 32; the operand shifts Rm, r15 reading pc + 12
(R360), by the low byte of Rs, with the carry of CPSR. -/
def Obligations.RegisterShifts : Prop :=
  ∀ (v : Word) (c : Bool) (n : Nat),
    (∀ ty, shiftReg ty 0 v c = ⟨v, c⟩) ∧
    (0 < n →
      (shiftReg .lsl n v c).val.toNat = v.toNat * 2 ^ n % 2 ^ 32 ∧
      (shiftReg .lsl n v c).carry = decide (v.toNat * 2 ^ n / 2 ^ 32 % 2 = 1) ∧
      (shiftReg .lsr n v c).val.toNat = v.toNat / 2 ^ n ∧
      (shiftReg .lsr n v c).carry = decide (v.toNat / 2 ^ (n - 1) % 2 = 1) ∧
      (shiftReg .asr n v c).val.toInt = v.toInt / (2 ^ n : Nat) ∧
      (shiftReg .asr n v c).carry = decide (v.toInt / (2 ^ (n - 1) : Nat) % 2 = 1) ∧
      (shiftReg .ror n v c).val.toNat = (v.toNat / 2 ^ (n % 32) + v.toNat % 2 ^ (n % 32) * 2 ^ (32 - n % 32)) % 2 ^ 32 ∧
      (shiftReg .ror n v c).carry = (shiftReg .ror n v c).val.msb) ∧
    (∀ (s : State) (ty : ShiftType) (rs rm : RegNo), rs ≠ 15#4 →
      s.shifter (.regReg rs ty rm) =
        shiftReg ty ((s.regOf s.cpu.cpsr.mode rs).toNat % 256)
          (if rm = 15#4 then s.cpu.pc + 12#32 else s.regOf s.cpu.cpsr.mode rm) s.cpu.cpsr.c)

/-- ADD, ADC, SUB, SBC, RSB and RSC with a destination below r15 complete: Rd takes the result; N, Z, C and V are those
of the exact sum or difference if S is set, else all flags stay; everything else stays (R408, R409, R412-R417). Rn and
operand2 are read as R360 and R404 say. -/
def Obligations.ArithmeticCompletes : Prop :=
  ∀ (s : State) (c : Cond) (sf : Bool) (rn rd : RegNo) (op2 : Operand2) (o : Instr × Word × Psr),
    ArmRuns c s → badShiftAmount op2 = false → rd ≠ 15#4 →
    o ∈ arithmeticOps c sf rn rd op2 (s.reg (if isRegShift op2 then 12#32 else 8#32) rn) (s.shifter op2).val s.cpu.cpsr →
    Completes (exec o.1 s) fun t =>
      Effect s t [(s.here rd, o.2.1)] (if sf then o.2.2 else s.cpu.cpsr) (s.cpu.pc + 4#32) ∧
      t.cycles = s.cycles + s.codeCost + shiftCycles op2

/-- AND, EOR, ORR, MOV, BIC and MVN with a destination below r15 complete: Rd takes the result; N and Z come from it and
C from the shifter if S is set, V stays; everything else stays (R405, R407, R409-R411, R422-R425). -/
def Obligations.LogicalCompletes : Prop :=
  ∀ (s : State) (c : Cond) (sf : Bool) (rn rd : RegNo) (op2 : Operand2) (o : Instr × Word),
    ArmRuns c s → badShiftAmount op2 = false → rd ≠ 15#4 →
    o ∈ logicalOps c sf rn rd op2 (s.reg (if isRegShift op2 then 12#32 else 8#32) rn) (s.shifter op2).val →
    Completes (exec o.1 s) fun t =>
      Effect s t [(s.here rd, o.2)] (if sf then logicalFlags s.cpu.cpsr o.2 (s.shifter op2).carry else s.cpu.cpsr)
        (s.cpu.pc + 4#32) ∧
      t.cycles = s.cycles + s.codeCost + shiftCycles op2

/-- TST, TEQ, CMP and CMN complete: they write the flags and no register, whatever stands in the Rd field (R409,
R418-R421). -/
def Obligations.CompareCompletes : Prop :=
  ∀ (s : State) (c : Cond) (rn ignored : RegNo) (op2 : Operand2) (o : Instr × Psr),
    ArmRuns c s → badShiftAmount op2 = false →
    o ∈ compareOps c rn ignored op2 (s.reg (if isRegShift op2 then 12#32 else 8#32) rn) (s.shifter op2).val
      (s.shifter op2).carry s.cpu.cpsr →
    Completes (exec o.1 s) fun t =>
      Effect s t [] o.2 (s.cpu.pc + 4#32) ∧ t.cycles = s.cycles + s.codeCost + shiftCycles op2

/-- The twelve result operations with Rd = 15 and S = 0 branch to the result, aligned to 4; no register and no flag
changes (R363, R409). -/
def Obligations.DataProcessingBranches : Prop :=
  ∀ (s : State) (c : Cond) (rn : RegNo) (op2 : Operand2) (o : Instr × Word),
    ArmRuns c s → badShiftAmount op2 = false →
    o ∈ resultOps c false rn 15#4 op2 (s.reg (if isRegShift op2 then 12#32 else 8#32) rn) (s.shifter op2).val
      s.cpu.cpsr →
    Completes (exec o.1 s) fun t =>
      Effect s t [] s.cpu.cpsr (o.2 &&& 0xFFFFFFFC#32) ∧
      t.cycles = s.cycles + s.codeCost + shiftCycles op2 + t.refillCost

/-- The twelve result operations with Rd = 15 and S = 1 return from an exception: CPSR takes the current mode's SPSR,
and the program counter the result aligned for the restored state; in a mode without an SPSR, or with an illegal mode in
it, they end in Fault(Unpredictable) (R365, R835, R409). -/
def Obligations.DataProcessingReturns : Prop :=
  ∀ (s : State) (c : Cond) (rn : RegNo) (op2 : Operand2) (o : Instr × Word),
    ArmRuns c s → badShiftAmount op2 = false →
    o ∈ resultOps c true rn 15#4 op2 (s.reg (if isRegShift op2 then 12#32 else 8#32) rn) (s.shifter op2).val
      s.cpu.cpsr →
    (spsrIndex s.cpu.cpsr.mode = none → FaultsUnpredictable o.1 s) ∧
    (∀ k, spsrIndex s.cpu.cpsr.mode = some k →
      let q := s.cpu.spsr.get k
      (legalMode q.mode = false → FaultsUnpredictable o.1 s) ∧
      (legalMode q.mode = true →
        Completes (exec o.1 s) fun t =>
          Effect s t [] q (if q.t then o.2 &&& 0xFFFFFFFE#32 else o.2 &&& 0xFFFFFFFC#32)))

/-- A data-processing instruction whose shift amount is r15 ends in Fault(Unpredictable) (R403). -/
def Obligations.ShiftAmountInR15Faults : Prop :=
  ∀ (s : State) (c : Cond) (sf : Bool) (rn rd rm : RegNo) (ty : ShiftType) (x y : Word) (carry : Bool) (p : Psr)
    (i : Instr), ArmRuns c s →
    i ∈ (resultOps c sf rn rd (.regReg 15#4 ty rm) x y p).map (·.1) ++
      (compareOps c rn rd (.regReg 15#4 ty rm) x y carry p).map (·.1) →
    FaultsUnpredictable i s

/-! ### Status registers -/

/-- MRS gives the flags in bits 31:28, zeros in 27:8, I, F, T and the mode, of CPSR or of the current mode's SPSR, and
changes nothing else; Rd = 15, or SPSR in a mode without one, is Fault(Unpredictable) (R65, R67, R430). -/
def Obligations.MrsReadsStatus : Prop :=
  ∀ (s : State) (c : Cond) (r : Bool) (rd : RegNo), ArmRuns c s →
    (rd = 15#4 ∨ (r = true ∧ spsrIndex s.cpu.cpsr.mode = none) → FaultsUnpredictable (.mrs c r rd) s) ∧
    (∀ p : Psr, rd ≠ 15#4 → (if r then s.spsr = some p else p = s.cpu.cpsr) →
      Completes (exec (.mrs c r rd) s) fun t => ∃ v : Word,
        Effect s t [(s.here rd, v)] s.cpu.cpsr (s.cpu.pc + 4#32) ∧ t.cycles = s.cycles + s.codeCost ∧
        v.toNat = p.n.toNat * 2 ^ 31 + p.z.toNat * 2 ^ 30 + p.c.toNat * 2 ^ 29 + p.v.toNat * 2 ^ 28 +
          p.i.toNat * 2 ^ 7 + p.f.toNat * 2 ^ 6 + p.t.toNat * 2 ^ 5 + p.mode.toNat)

/-- MSR to CPSR, both forms: mask bit 3 writes the flags; mask bit 0 writes I, F and the mode in a privileged mode and
nothing in User mode; T never changes, and asking for another T or an illegal mode is Fault(Unpredictable), as is Rm = 15
(R431, R846, R1207). -/
def Obligations.MsrWritesCpsr : Prop :=
  ∀ (s : State) (c : Cond) (mask rot : BitVec 4) (imm8 : BitVec 8) (rm : RegNo), ArmRuns c s →
    FaultsUnpredictable (.msrCpsrReg c mask 15#4) s ∧
    (∀ o ∈ [(Instr.msrCpsrReg c mask rm, s.regOf s.cpu.cpsr.mode rm), (.msrCpsrImm c mask rot imm8, rotatedImm rot imm8)],
      (o.1 = Instr.msrCpsrReg c mask rm → rm ≠ 15#4) →
      let v := o.2
      let p := s.cpu.cpsr
      let control := mask.getLsbD 0 = true ∧ p.mode ≠ modeUsr
      (control → (legalMode (v.extractLsb' 0 5) = false ∨ v.getLsbD 5 = true) → FaultsUnpredictable o.1 s) ∧
      ((control → legalMode (v.extractLsb' 0 5) = true ∧ v.getLsbD 5 = false) →
        Completes (exec o.1 s) fun t =>
          ∃ q : Psr, Effect s t [] q (s.cpu.pc + 4#32) ∧ t.cycles = s.cycles + s.codeCost ∧ q.t = p.t ∧
            (if mask.getLsbD 3 then q.n = v.getLsbD 31 ∧ q.z = v.getLsbD 30 ∧ q.c = v.getLsbD 29 ∧ q.v = v.getLsbD 28
              else q.n = p.n ∧ q.z = p.z ∧ q.c = p.c ∧ q.v = p.v) ∧
            (control → q.i = v.getLsbD 7 ∧ q.f = v.getLsbD 6 ∧ q.mode = v.extractLsb' 0 5) ∧
            (¬control → q.i = p.i ∧ q.f = p.f ∧ q.mode = p.mode)))

/-- MSR to SPSR, both forms: the current mode's SPSR takes the fields the mask selects, any value of the control field,
and is marked written, and every other register, flag and SPSR stays; Rm = 15, or a mode without an SPSR, is Fault(Unpredictable) (R432). -/
def Obligations.MsrWritesSpsr : Prop :=
  ∀ (s : State) (c : Cond) (mask rot : BitVec 4) (imm8 : BitVec 8) (rm : RegNo), ArmRuns c s →
    FaultsUnpredictable (.msrSpsrReg c mask 15#4) s ∧
    (∀ o ∈ [(Instr.msrSpsrReg c mask rm, s.regOf s.cpu.cpsr.mode rm), (.msrSpsrImm c mask rot imm8, rotatedImm rot imm8)],
      (o.1 = Instr.msrSpsrReg c mask rm → rm ≠ 15#4) →
      let v := o.2
      (spsrIndex s.cpu.cpsr.mode = none → FaultsUnpredictable o.1 s) ∧
      (∀ k, spsrIndex s.cpu.cpsr.mode = some k →
        let p := s.cpu.spsr.get k
        Completes (exec o.1 s) fun t =>
          Wrote s t [] ∧ t.cpu.cpsr = s.cpu.cpsr ∧ t.cpu.pc = s.cpu.pc + 4#32 ∧ OnlyCpu s t ∧ SameBytes s t ∧
          t.cycles = s.cycles + s.codeCost ∧ WroteSpsr s t k (t.cpu.spsr.get k) ∧
          let q := t.cpu.spsr.get k
          (if mask.getLsbD 3 then q.n = v.getLsbD 31 ∧ q.z = v.getLsbD 30 ∧ q.c = v.getLsbD 29 ∧ q.v = v.getLsbD 28
            else q.n = p.n ∧ q.z = p.z ∧ q.c = p.c ∧ q.v = p.v) ∧
          (if mask.getLsbD 0 then
              q.i = v.getLsbD 7 ∧ q.f = v.getLsbD 6 ∧ q.t = v.getLsbD 5 ∧ q.mode = v.extractLsb' 0 5
            else q.i = p.i ∧ q.f = p.f ∧ q.t = p.t ∧ q.mode = p.mode)))

/-! ### Multiply -/

/-- MUL, MLA and the Thumb MUL complete on operands R466 allows: Rd takes the low 32 bits of the exact product (plus Rn);
with S, N and Z come from it, V stays and C is a free value; everything else stays (R465, R467, R470, R471, R633). -/
def Obligations.MultiplyCompletes : Prop :=
  (∀ (s : State) (c : Cond) (sf : Bool) (rd ra rs rm : RegNo) (o : Instr × Nat × List RegNo × Nat), ArmRuns c s →
    let x := (s.reg 8#32 rm).toNat
    let y := (s.reg 8#32 rs).toNat
    o ∈ [(.mul c sf rd ra rs rm, x * y, [rs], 0), (.mla c sf rd ra rs rm, x * y + (s.reg 8#32 ra).toNat, [ra, rs], 1)] →
    ¬MulForbidden rd rm o.2.2.1 →
    Completes (exec o.1 s) fun t => ∃ free : Bool,
      EffectDraws s t [(s.here rd, BitVec.ofNat 32 o.2.1)]
        (if sf then { signZero s.cpu.cpsr (BitVec.ofNat 32 o.2.1) with c := free } else s.cpu.cpsr) (s.cpu.pc + 4#32) ∧
      t.cycles = s.cycles + s.codeCost + mulCycles true (s.reg 8#32 rs) + o.2.2.2 ∧ (sf = false → t.draws = s.draws)) ∧
  (∀ (s : State) (rs rd : LowReg), s.cpu.cpsr.t = true → rs ≠ rd →
    Completes (exec (.tMul rs rd) s) fun t => ∃ free : Bool,
      let v := BitVec.ofNat 32 ((s.low rs).toNat * (s.low rd).toNat)
      EffectDraws s t [(s.here rd.up, v)] { signZero s.cpu.cpsr v with c := free } (s.cpu.pc + 2#32) ∧
      t.cycles = s.cycles + s.codeCost + mulCycles true (s.low rd))

/-- UMULL, UMLAL, SMULL and SMLAL complete on operands R466 allows: RdHi and RdLo take the two halves of the exact
product (plus the accumulator) modulo 2^64; with S, N and Z come from the 64 bits and C and V are free values (R467,
R475-R478). -/
def Obligations.LongMultiplyCompletes : Prop :=
  ∀ (s : State) (c : Cond) (sf : Bool) (rdHi rdLo rs rm : RegNo) (o : Instr × Int × Bool × Nat), ArmRuns c s →
    ¬MulLongForbidden rdHi rdLo rs rm →
    let x := s.reg 8#32 rm
    let y := s.reg 8#32 rs
    let acc : Int := (s.reg 8#32 rdHi).toNat * 2 ^ 32 + (s.reg 8#32 rdLo).toNat
    o ∈ [(.umull c sf rdHi rdLo rs rm, (x.toNat : Int) * y.toNat, false, 1),
      (.umlal c sf rdHi rdLo rs rm, (x.toNat : Int) * y.toNat + acc, false, 2),
      (.smull c sf rdHi rdLo rs rm, x.toInt * y.toInt, true, 1),
      (.smlal c sf rdHi rdLo rs rm, x.toInt * y.toInt + acc, true, 2)] →
    Completes (exec o.1 s) fun t => ∃ freeC freeV : Bool,
      let r := BitVec.ofInt 64 o.2.1
      EffectDraws s t [(s.here rdHi, r.extractLsb' 32 32), (s.here rdLo, r.extractLsb' 0 32)]
        (if sf then { signZeroLong s.cpu.cpsr r with c := freeC, v := freeV } else s.cpu.cpsr) (s.cpu.pc + 4#32) ∧
      t.cycles = s.cycles + s.codeCost + mulCycles o.2.2.1 y + o.2.2.2 ∧ (sf = false → t.draws = s.draws)

/-- The multiplies on operands R466 forbids, and the Thumb MUL with Rd = Rs, end in Fault(Unpredictable) (R466, R633). -/
def Obligations.MultiplyOperandFaults : Prop :=
  (∀ (s : State) (c : Cond) (sf : Bool) (rd ra rs rm : RegNo), ArmRuns c s →
    (MulForbidden rd rm [rs] → FaultsUnpredictable (.mul c sf rd ra rs rm) s) ∧
    (MulForbidden rd rm [ra, rs] → FaultsUnpredictable (.mla c sf rd ra rs rm) s)) ∧
  (∀ (s : State) (c : Cond) (sf : Bool) (rdHi rdLo rs rm : RegNo) (i : Instr), ArmRuns c s →
    MulLongForbidden rdHi rdLo rs rm →
    i ∈ [Instr.umull c sf rdHi rdLo rs rm, .umlal c sf rdHi rdLo rs rm, .smull c sf rdHi rdLo rs rm,
      .smlal c sf rdHi rdLo rs rm] → FaultsUnpredictable i s) ∧
  (∀ (s : State) (r : LowReg), s.cpu.cpsr.t = true → FaultsUnpredictable (.tMul r r) s)

/-! ### ARM loads and stores -/

/-- Every ARM load of one register below r15 completes at every address, on operands its rule allows: the destination
takes the value the bus gives there (rotated, zero- or sign-extended as its rule says), in RAM that of memory, the base
the write-back if the form has one; flags, other registers and every byte of memory stay (R170, R500, R502, R504, R506,
R508, R510, R521-R523, R525). -/
def Obligations.LoadsComplete : Prop :=
  ∀ (s : State) (c : Cond) (p u w : Bool) (rn rd rm : RegNo) (off : Offset) (imm8 : BitVec 8)
    (o : Instr × Access × LoadForm × Prop), ArmRuns c s → rd ≠ 15#4 →
    o ∈ armLoads s c p u w rn rd rm off imm8 → ¬o.2.2.2 → LoadsTo o.1 s o.2.1 rn rd o.2.2.1

/-- LDR and LDRT of r15 branch to the word the bus gives, in RAM that of memory, aligned to 4, without a change of state
(R170, R363, R500, R504). -/
def Obligations.LoadToR15Branches : Prop :=
  ∀ (s : State) (c : Cond) (p u w : Bool) (rn : RegNo) (off : Offset) (o : Instr × Access × Prop), ArmRuns c s →
    o ∈ [(.ldr c p u w rn 15#4 off, s.access p u w rn (s.offset off), SingleForbidden true false p w rn 15#4 off),
      (.ldrt c u rn 15#4 off, s.access false u true rn (s.offset off), SingleForbidden true false false true rn 15#4 off)] →
    ¬o.2.2 →
    Completes (exec o.1 s) fun t => ∃ v : Word,
      CpuEffect s t (o.2.1.baseWrite s rn) s.cpu.cpsr (v &&& 0xFFFFFFFC#32) ∧ OnlyCpuRead s t ∧ SameBytes s t ∧
      s.loads .word o.2.1.addr v

/-- Every ARM store of one register completes where memory alone takes the store: exactly the cells of the store change
(the addressed unit, aligned; a byte duplicated or discarded where R188-R190 say), and the base if the form writes it
back; r15 stores as pc + 12 (R164, R501, R503, R505, R507, R510, R520, R525). Where a byte to VRAM goes in BG modes 6 and 7,
which R189 does not name, is the model's choice (log entry 21). -/
def Obligations.StoresComplete : Prop :=
  ∀ (s : State) (c : Cond) (p u w : Bool) (rn rd rm : RegNo) (off : Offset) (imm8 : BitVec 8)
    (o : Instr × Access × Width × Prop), ArmRuns c s → o ∈ armStores s c p u w rn rd rm off imm8 → ¬o.2.2.2 →
    s.plainStore o.2.1.addr o.2.2.1 = true → s.dma.held = [] →
    StoresTo o.1 s o.2.1 rn o.2.2.1 (if rd = 15#4 then s.cpu.pc + 12#32 else s.regOf s.cpu.cpsr.mode rd)

/-- The self-modification window (R205) is the two instruction slots after the executing instruction, byte by byte,
addresses modulo 2^32 (log entry 25); every store of one register, ARM or Thumb, faults in it, ends in the fault its
access raises, or completes with the access's effect, whatever it reaches; and an STM whose word k is the first in the
window faults there with the words before it stored, no register changed and the record kept (R25, R354; that a listed
base is stored as the current mode's register, also with S, is log entry 16). -/
def Obligations.StoresGoThroughTheBus : Prop :=
  (∀ (s : State) (a : Word) (n : Nat), 0 < n → n ≤ 4 →
    (s.storeWindow.hit a n = true ↔ ∃ k, k < n ∧
      (a + BitVec.ofNat 32 k - s.following).toNat < 2 * (if s.cpu.cpsr.t then 2 else 4))) ∧
  (∀ (s : State) (c : Cond) (p u w : Bool) (rn rd rm : RegNo) (off : Offset) (imm8 : BitVec 8)
    (o : Instr × Access × Width × Prop), ArmRuns c s → o ∈ armStores s c p u w rn rd rm off imm8 → ¬o.2.2.2 →
    StoreGoesThrough o.1 s o.2.1 rn o.2.2.1 (s.reg 12#32 rd)) ∧
  (∀ (s : State) (ro rb rd : LowReg) (off : BitVec 5) (imm8 : BitVec 8) (o : Instr × Word × Width),
    s.cpu.cpsr.t = true → o ∈ thumbStores s ro rb rd off imm8 →
    StoreGoesThrough o.1 s ⟨o.2.1, o.2.1, false⟩ 0#4 o.2.2 (s.low rd)) ∧
  (∀ (s : State) (c : Cond) (p u sf w : Bool) (rn : RegNo) (list : BitVec 16) (k : Nat), ArmRuns c s →
    ¬StoreBlockForbidden s sf w rn list → s.dma.held = [] →
    let regs := regList list
    let start := blockStart p u (s.regOf s.cpu.cpsr.mode rn) regs.length
    let a := start + fourTimes k
    k < regs.length → s.plainStores (wordAddresses k start) = true →
    s.storeWindow.hit (Width.word.align a) 4 = true →
    ∃ t, exec (.stm c p u sf w rn list) s = .fault (.selfModifyHazard s.cpu.pc a t) ∧
      t = { s with
        cycles := t.cycles, mem := t.mem, icache := t.icache, fault := some (.selfModifyHazard s.cpu.pc a) } ∧
      WroteBytes s t (s.blockCells ((regs.take k).map (s.storedReg sf rn)) start))

/-- ARM loads and stores on operands R509, R525, R545 or R562 forbids end in Fault(Unpredictable). -/
def Obligations.TransferOperandFaults : Prop :=
  (∀ (s : State) (c : Cond) (p u w : Bool) (rn rd rm : RegNo) (off : Offset) (imm8 : BitVec 8), ArmRuns c s →
    (∀ o ∈ armLoads s c p u w rn rd rm off imm8, o.2.2.2 → FaultsUnpredictable o.1 s) ∧
    (∀ o ∈ armStores s c p u w rn rd rm off imm8, o.2.2.2 → FaultsUnpredictable o.1 s)) ∧
  (∀ (s : State) (c : Cond) (p u sf w : Bool) (rn : RegNo) (list : BitVec 16), ArmRuns c s →
    (LoadBlockForbidden s sf w rn list → FaultsUnpredictable (.ldm c p u sf w rn list) s) ∧
    (StoreBlockForbidden s sf w rn list → FaultsUnpredictable (.stm c p u sf w rn list) s)) ∧
  (∀ (s : State) (c : Cond) (rn rd rm : RegNo), ArmRuns c s →
    rd = 15#4 ∨ rm = 15#4 ∨ rn = 15#4 ∨ rn = rd ∨ rn = rm →
    FaultsUnpredictable (.swp c rn rd rm) s ∧ FaultsUnpredictable (.swpb c rn rd rm) s)

/-- SWP and SWPB complete where memory alone takes the store, on operands R562 allows: Rd takes the value the bus gives
before (rotated for a misaligned word), in RAM that of memory, memory the old Rm, and nothing else changes (R560-R562).
Where SWPB's byte to VRAM goes in BG modes 6 and 7, which R189 does not name, is the model's choice (log entry 21). -/
def Obligations.SwapCompletes : Prop :=
  ∀ (s : State) (c : Cond) (rn rd rm : RegNo) (o : Instr × Width × LoadForm), ArmRuns c s →
    o ∈ [(.swp c rn rd rm, .word, .word), (.swpb c rn rd rm, .byte, .byte)] →
    rd ≠ 15#4 → rm ≠ 15#4 → rn ≠ 15#4 → rn ≠ rd → rn ≠ rm →
    let a := s.regOf s.cpu.cpsr.mode rn
    s.plainStore a o.2.1 = true → s.dma.held = [] →
    Completes (exec o.1 s) fun t => ∃ v : Word,
      CpuEffect s t [(s.here rd, v)] s.cpu.cpsr (s.cpu.pc + 4#32) ∧
      t = { s with cpu := t.cpu, cycles := t.cycles, mem := t.mem, icache := t.icache, draws := t.draws } ∧
      WroteBytes s t (s.storedCells a o.2.1 (s.regOf s.cpu.cpsr.mode rm)) ∧
      s.loads o.2.2 a v

/-- LDM completes in every form R545 allows: the listed registers, of the User bank for the form of R541, take the
successive words the bus gives from the start address of its mode on, in RAM those of memory, the base the write-back,
and r15 branches, restoring CPSR from the SPSR with S set (R170, R173, R540-R544). -/
def Obligations.LoadMultipleCompletes : Prop :=
  ∀ (s : State) (c : Cond) (p u sf w : Bool) (rn : RegNo) (list : BitVec 16), ArmRuns c s →
    ¬LoadBlockForbidden s sf w rn list →
    let regs := regList list
    let base := s.regOf s.cpu.cpsr.mode rn
    let start := blockStart p u base regs.length
    let bank := if sf && !list.getLsbD 15 then modeUsr else s.cpu.cpsr.mode
    Completes (exec (.ldm c p u sf w rn list) s) fun t => ∃ vs : List Word,
      vs.length = regs.length ∧ s.loadsWords start vs ∧
      Wrote s t (loadedRegs bank regs vs ++ if w then [(s.here rn, blockWriteBack u base regs.length)] else []) ∧
      SameSpsrs s t ∧ OnlyCpuRead s t ∧ SameBytes s t ∧
      (if list.getLsbD 15 then
        (if sf then some t.cpu.cpsr = s.spsr else t.cpu.cpsr = s.cpu.cpsr) ∧
        t.cpu.pc = vs.getLastD 0#32 &&& (if t.cpu.cpsr.t then 0xFFFFFFFE#32 else 0xFFFFFFFC#32)
      else t.cpu.cpsr = s.cpu.cpsr ∧ t.cpu.pc = s.cpu.pc + 4#32)

/-- STM completes where memory alone takes its stores, in every form R545 allows: successive words from the start
address take the listed registers (of the User bank with S; the base as it was; r15 as pc + 12), the base the write-back,
and nothing else changes (R541, R543, R544; with S the base stores the current mode's register, log entry 16). -/
def Obligations.StoreMultipleCompletes : Prop :=
  ∀ (s : State) (c : Cond) (p u sf w : Bool) (rn : RegNo) (list : BitVec 16), ArmRuns c s →
    ¬StoreBlockForbidden s sf w rn list →
    let regs := regList list
    let base := s.regOf s.cpu.cpsr.mode rn
    let start := blockStart p u base regs.length
    s.plainStores (wordAddresses regs.length start) = true → s.dma.held = [] →
    Completes (exec (.stm c p u sf w rn list) s) fun t =>
      CpuEffect s t (if w then [(s.here rn, blockWriteBack u base regs.length)] else []) s.cpu.cpsr
        (s.cpu.pc + 4#32) ∧
      OnlyCpuMem s t ∧ WroteBytes s t (s.blockCells (regs.map (s.storedReg sf rn)) start)

/-- Accesses outside RAM, of every width (R172, R185, R191-R193): a BIOS read by code outside the BIOS is a free value
and by code inside it the image's; the ROM is the image's; past the end of an image, and for a word that straddles it,
is the width's sentinel (of a protected BIOS word and of any other halfword that straddle the end it is the model's
choice, log entry 15; a protected BIOS halfword that does is free, as R185 says); unmapped reads are free; an SRAM read
repeats its byte in every lane; a misaligned read is the aligned one rotated (R162, R163, R170), so that a misaligned
wide SRAM read repeats the byte at the aligned address, which is the model's reading (log entry 27); and a wide store to
save memory is Fault(Unpredictable), with the access billed and the record kept; that the fault's information is the
address is the model's choice (log entry 32). -/
def Obligations.AccessesOutsideRam : Prop :=
  (∀ (s : State) (a : Word) (w : Width) (seq : Bool), a.toNat % w.bytes = 0 →
    let v := (s.memRead a w seq).1
    let bios := a.toNat % 0x1000000
    let rom := a.toNat % 0x2000000
    let image := fun k : Nat => lanes (s.mem.byte k) (s.mem.byte (k + 1)) (s.mem.byte (k + 2)) (s.mem.byte (k + 3)) w
    let free := BitVec.ofNat 32 ((Config.draw s.draws).toNat % 2 ^ (8 * w.bytes))
    (s.region a = .bios → v =
      if s.biosLen ≤ bios ∨ (w = .word ∧ s.biosLen < bios + 4) then pastEnd w
      else if s.cpu.pc.extractLsb' 24 8 ≠ 0#8 then free
      else if s.biosLen < bios + w.bytes then pastEnd w
      else image bios) ∧
    (s.region a ∈ [Region.rom0, .rom1, .rom2] → s.isEepromPort a = false → s.gpio.readable = false → v =
      if s.romLen < rom + w.bytes then pastEnd w else image (0x08000000 + rom)) ∧
    (s.region a = .unmapped → v = free) ∧
    (s.region a = .save → s.save.backend = .sram →
      let b := s.mem.byte (0x0E000000 + a.toNat % 0x8000)
      v = lanes b b b b w) ∧
    (∀ x : Word, s.region a = .save → w ≠ .byte → s.storeWindow.hit a w.bytes = false →
      let u := (s.billAccess a w seq).invalidatePages a
      s.memWrite a w x seq =
        .error (.unpredictable s.cpu.pc a { u with fault := some (.unpredictable s.cpu.pc a) }))) ∧
  (∀ (s : State) (a : Word) (w : Width) (seq : Bool),
    s.memRead a w seq =
      (rotateBytes (s.memRead (w.align a) w seq).1 (a.toNat % w.bytes), (s.memRead (w.align a) w seq).2))

/-! ### ARM branches and exceptions -/

/-- B and BL complete: the program counter is pc + 8 plus four times the signed offset, and BL's r14, of the current
bank, the address of the next instruction (R570, R571, R1201). -/
def Obligations.BranchesComplete : Prop :=
  ∀ (s : State) (c : Cond) (off : BitVec 24), s.cpu.pc.toNat % 4 = 0 → ArmRuns c s →
    let target := BitVec.ofInt 32 (s.cpu.pc.toNat + 8 + 4 * off.toInt)
    (Completes (exec (.b c off) s) fun t =>
      Effect s t [] s.cpu.cpsr target ∧ t.cycles = s.cycles + s.codeCost + t.refillCost) ∧
    (Completes (exec (.bl c off) s) fun t =>
      Effect s t [(s.here 14#4, s.cpu.pc + 4#32)] s.cpu.cpsr target ∧
      t.cycles = s.cycles + s.codeCost + t.refillCost)

/-- BX, ARM and Thumb: an odd target goes on in Thumb state at the target less 1, a multiple of 4 in ARM state, and a
target 2 modulo 4 is Fault(Unpredictable); r15 reads pc + 8 or pc + 4; only T and the program counter change (R575,
R735). -/
def Obligations.BranchExchanges : Prop :=
  ∀ (s : State) (c : Cond) (rm : RegNo) (o : Instr × Word),
    (ArmRuns c s ∧ o = (.bx c rm, s.reg 8#32 rm)) ∨ (s.cpu.cpsr.t = true ∧ o = (.tBx rm, s.reg 4#32 rm)) →
    (o.2.toNat % 2 = 1 → Completes (exec o.1 s) fun t =>
      Effect s t [] { s.cpu.cpsr with t := true } (o.2 - 1#32) ∧ t.cycles = s.cycles + s.codeCost + t.refillCost) ∧
    (o.2.toNat % 4 = 0 → Completes (exec o.1 s) fun t =>
      Effect s t [] { s.cpu.cpsr with t := false } o.2 ∧ t.cycles = s.cycles + s.codeCost + t.refillCost) ∧
    (o.2.toNat % 4 = 2 → FaultsUnpredictable o.1 s)

/-- SWI in either state takes the exception: SPSR_svc saves CPSR, r14_svc the address of the next instruction, the mode
is Supervisor in ARM state with IRQs disabled, the program counter 8; flags, F and every other register stay; the comment
has no effect (R580, R745, R830). -/
def Obligations.SoftwareInterruptEnters : Prop :=
  (∀ (s : State) (c : Cond) (n : BitVec 24), ArmRuns c s →
    Completes (exec (.swi c n) s) fun t =>
      EntersException s t modeSvc 2 8#32 (s.cpu.pc + 4#32) ∧ t.cycles = s.cycles + s.codeCost + 2) ∧
  (∀ (s : State) (n : BitVec 8), s.cpu.cpsr.t = true →
    Completes (exec (.tSwi n) s) fun t =>
      EntersException s t modeSvc 2 8#32 (s.cpu.pc + 2#32) ∧ t.cycles = s.cycles + s.codeCost + 2)

/-- The coprocessor and undefined rows, ARM whatever their condition and Thumb, end in Fault(IllegalInstruction) with
their word (R280, R368, R590). -/
def Obligations.IllegalRowsStop : Prop := ∀ (i : Instr) (s : State), i.illegalRow = true → FaultsIllegal i s

/-! ### Thumb -/

/-- The Thumb shifts, by an immediate and by the low byte of a register, complete: Rd takes the shifted value, N and Z
come from it, C from the shifter, V and everything else stay; a register shift bills one internal cycle (R600-R602,
R622-R624, R627). -/
def Obligations.ThumbShiftsComplete : Prop :=
  ∀ (s : State) (off : BitVec 5) (rs rd : LowReg) (o : Instr × Shifted × Nat), s.cpu.cpsr.t = true →
    o ∈ thumbShifts s off rs rd →
    Completes (exec o.1 s) fun t =>
      Effect s t [(s.here rd.up, o.2.1.val)] (logicalFlags s.cpu.cpsr o.2.1.val o.2.1.carry) (s.cpu.pc + 2#32) ∧
      t.cycles = s.cycles + s.codeCost + o.2.2

/-- The Thumb additions, subtractions and NEG complete: Rd takes the result, the four flags are those of the exact sum
or difference, and everything else stays (R605-R608, R612, R613, R625, R626, R629). -/
def Obligations.ThumbArithmeticCompletes : Prop :=
  ∀ (s : State) (rn rs rd : LowReg) (imm3 : BitVec 3) (imm8 : BitVec 8) (o : Instr × LowReg × Word × Psr),
    s.cpu.cpsr.t = true → o ∈ thumbArithmetic s rn rs rd imm3 imm8 →
    Completes (exec o.1 s) fun t =>
      Effect s t [(s.here o.2.1.up, o.2.2.1)] o.2.2.2 (s.cpu.pc + 2#32) ∧ t.cycles = s.cycles + s.codeCost

/-- The Thumb logical operations and MOV write Rd, N and Z; the comparisons and TST write flags and no register; C and V
stay where no addition sets them, and everything else stays (R610, R611, R620, R621, R628, R630-R632, R634, R635). -/
def Obligations.ThumbLogicalAndCompareComplete : Prop :=
  ∀ (s : State) (rs rd : LowReg) (imm8 : BitVec 8), s.cpu.cpsr.t = true →
    (∀ o ∈ thumbLogical s rs rd imm8, Completes (exec o.1 s) fun t =>
      Effect s t [(s.here o.2.1.up, o.2.2)] (signZero s.cpu.cpsr o.2.2) (s.cpu.pc + 2#32) ∧
      t.cycles = s.cycles + s.codeCost) ∧
    (∀ o ∈ thumbCompare s rs rd imm8, Completes (exec o.1 s) fun t =>
      Effect s t [] o.2 (s.cpu.pc + 2#32) ∧ t.cycles = s.cycles + s.codeCost)

/-- The high-register ADD, MOV and CMP complete with at least one high register: ADD and MOV write the register without
flags, or branch in Thumb state if it is r15; CMP sets the four flags; r15 reads pc + 4; two low registers are
Fault(Unpredictable) (R640-R642). -/
def Obligations.ThumbHighRegistersComplete : Prop :=
  ∀ (s : State) (rs rd : RegNo), s.cpu.cpsr.t = true →
    let x := s.reg 4#32 rd
    let y := s.reg 4#32 rs
    (rs.toNat < 8 → rd.toNat < 8 → ∀ i ∈ [Instr.tAddHi rs rd, .tCmpHi rs rd, .tMovHi rs rd], FaultsUnpredictable i s) ∧
    (8 ≤ rs.toNat ∨ 8 ≤ rd.toNat →
      (∀ o ∈ [(Instr.tAddHi rs rd, x + y), (.tMovHi rs rd, y)],
        (rd ≠ 15#4 → Completes (exec o.1 s) fun t =>
          Effect s t [(s.here rd, o.2)] s.cpu.cpsr (s.cpu.pc + 2#32) ∧ t.cycles = s.cycles + s.codeCost) ∧
        (rd = 15#4 → Completes (exec o.1 s) fun t =>
          Effect s t [] s.cpu.cpsr (o.2 &&& 0xFFFFFFFE#32) ∧ t.cycles = s.cycles + s.codeCost + t.refillCost)) ∧
      (Completes (exec (.tCmpHi rs rd) s) fun t =>
        Effect s t [] (diffFlags s.cpu.cpsr x y false) (s.cpu.pc + 2#32) ∧ t.cycles = s.cycles + s.codeCost))

/-- The address forms complete without flags: Rd takes (pc + 4) rounded down to 4, or sp, plus 4 times the immediate,
and sp moves by 4 times a 7-bit immediate either way (R645, R646, R650). -/
def Obligations.ThumbAddressesComplete : Prop :=
  ∀ (s : State) (rd : LowReg) (imm8 : BitVec 8) (imm7 : BitVec 7) (o : Instr × RegNo × Word), s.cpu.cpsr.t = true →
    let sp := s.regOf s.cpu.cpsr.mode 13#4
    o ∈ [(.tAddPc rd imm8, rd.up, ((s.cpu.pc + 4#32) &&& 0xFFFFFFFC#32) + 4#32 * imm8.setWidth 32),
      (.tAddSp rd imm8, rd.up, sp + 4#32 * imm8.setWidth 32),
      (.tAdjustSp false imm7, 13#4, sp + 4#32 * imm7.setWidth 32),
      (.tAdjustSp true imm7, 13#4, sp - 4#32 * imm7.setWidth 32)] →
    Completes (exec o.1 s) fun t =>
      Effect s t [(s.here o.2.1, o.2.2)] s.cpu.cpsr (s.cpu.pc + 2#32) ∧ t.cycles = s.cycles + s.codeCost

/-- Every Thumb load of one register completes at every address, with the value the bus gives there, in RAM that of
memory; flags, other registers and memory stay (R670, R677, R678, R681-R683, R686, R688, R691, R696). -/
def Obligations.ThumbLoadsComplete : Prop :=
  ∀ (s : State) (ro rb rd : LowReg) (off : BitVec 5) (imm8 : BitVec 8) (o : Instr × Word × LoadForm),
    s.cpu.cpsr.t = true → o ∈ thumbLoads s ro rb rd off imm8 → LoadsLow o.1 s o.2.1 rd o.2.2

/-- Every Thumb store of one register completes where memory alone takes the store, and changes exactly its cells (R675,
R676, R680, R685, R687, R690, R695). Where a byte to VRAM goes in BG modes 6 and 7, which R189 does not name, is the
model's choice (log entry 21). -/
def Obligations.ThumbStoresComplete : Prop :=
  ∀ (s : State) (ro rb rd : LowReg) (off : BitVec 5) (imm8 : BitVec 8) (o : Instr × Word × Width),
    s.cpu.cpsr.t = true → o ∈ thumbStores s ro rb rd off imm8 → s.plainStore o.2.1 o.2.2 = true → s.dma.held = [] →
    StoresLow o.1 s o.2.1 rd o.2.2

/-- PUSH and STMIA complete where memory alone takes their stores: successive words take the listed registers in
ascending order, r14 last; sp falls and the base rises by 4 times their number, and nothing else changes; an empty list,
and a listed base that is not the lowest, are Fault(Unpredictable) (R700, R705). -/
def Obligations.ThumbBlockStoresComplete : Prop :=
  ∀ (s : State) (r : Bool) (list : BitVec 8) (rb : LowReg), s.cpu.cpsr.t = true →
    let low := (lowList list).map (s.regOf s.cpu.cpsr.mode)
    let pushed := low ++ if r then [s.regOf s.cpu.cpsr.mode 14#4] else []
    let start := s.regOf s.cpu.cpsr.mode 13#4 - fourTimes pushed.length
    (list = 0#8 → r = false → FaultsUnpredictable (.tPush r list) s) ∧
    (list ≠ 0#8 ∨ r = true → s.plainStores (wordAddresses pushed.length start) = true → s.dma.held = [] →
      Completes (exec (.tPush r list) s) fun t =>
        CpuEffect s t [(s.here 13#4, start)] s.cpu.cpsr (s.cpu.pc + 2#32) ∧ OnlyCpuMem s t ∧
        WroteBytes s t (s.blockCells pushed start)) ∧
    (list = 0#8 ∨ (list.getLsbD rb.toNat = true ∧ ∃ k, k < rb.toNat ∧ list.getLsbD k = true) →
      FaultsUnpredictable (.tStmia rb list) s) ∧
    (list ≠ 0#8 → (list.getLsbD rb.toNat = true → ∀ k, k < rb.toNat → list.getLsbD k = false) →
      s.plainStores (wordAddresses low.length (s.low rb)) = true → s.dma.held = [] →
      Completes (exec (.tStmia rb list) s) fun t =>
        CpuEffect s t [(s.here rb.up, s.low rb + fourTimes low.length)] s.cpu.cpsr (s.cpu.pc + 2#32) ∧ OnlyCpuMem s t ∧
        WroteBytes s t (s.blockCells low (s.low rb)))

/-- POP and LDMIA complete on every list that is not empty: the listed registers take the successive words the bus gives
from sp or the base on, in RAM those of memory; sp rises by 4 times their number, and the base unless it is listed; POP
of the program counter branches in Thumb state; an empty list is Fault(Unpredictable) (R701, R706). -/
def Obligations.ThumbBlockLoadsComplete : Prop :=
  ∀ (s : State) (r : Bool) (list : BitVec 8) (rb : LowReg), s.cpu.cpsr.t = true →
    let regs := lowList list
    let m := s.cpu.cpsr.mode
    let sp := s.regOf m 13#4
    (list = 0#8 → FaultsUnpredictable (.tLdmia rb list) s ∧ (r = false → FaultsUnpredictable (.tPop r list) s)) ∧
    (list ≠ 0#8 ∨ r = true →
      Completes (exec (.tPop r list) s) fun t => ∃ vs : List Word,
        vs.length = regs.length + r.toNat ∧ s.loadsWords sp vs ∧
        CpuEffect s t (loadedRegs m regs vs ++ [(s.here 13#4, sp + fourTimes vs.length)]) s.cpu.cpsr
          (if r then vs.getLastD 0#32 &&& 0xFFFFFFFE#32 else s.cpu.pc + 2#32) ∧
        OnlyCpuRead s t ∧ SameBytes s t) ∧
    (list ≠ 0#8 →
      Completes (exec (.tLdmia rb list) s) fun t => ∃ vs : List Word,
        vs.length = regs.length ∧ s.loadsWords (s.low rb) vs ∧
        CpuEffect s t (loadedRegs m regs vs ++
            if list.getLsbD rb.toNat then [] else [(s.here rb.up, s.low rb + fourTimes regs.length)])
          s.cpu.cpsr (s.cpu.pc + 2#32) ∧
        OnlyCpuRead s t ∧ SameBytes s t)

/-- The Thumb branches complete: B and a taken B<cond> go to pc + 4 plus twice the signed offset, a failed condition to
the next halfword; the first half of BL leaves the high part of the target in r14 and the second branches to r14 plus
twice its offset, leaving in r14 the next address with bit 0 set (R730, R731, R740, R741). That a failed condition bills
its code access at the prefetch address is the model's reading (log entry 29). -/
def Obligations.ThumbBranchesComplete : Prop :=
  ∀ (s : State) (c : Cond) (off8 : BitVec 8) (off11 : BitVec 11), s.cpu.pc.toNat % 2 = 0 → s.cpu.cpsr.t = true →
    let lr := s.regOf s.cpu.cpsr.mode 14#4
    (condHolds c s.cpu.cpsr = true → Completes (exec (.tBcond c off8) s) fun t =>
      Effect s t [] s.cpu.cpsr (BitVec.ofInt 32 (s.cpu.pc.toNat + 4 + 2 * off8.toInt)) ∧
      t.cycles = s.cycles + s.codeCost + t.refillCost) ∧
    (condHolds c s.cpu.cpsr = false → Completes (exec (.tBcond c off8) s) fun t =>
      Effect s t [] s.cpu.cpsr (s.cpu.pc + 2#32) ∧ t.cycles = s.cycles + s.codeCost) ∧
    (Completes (exec (.tB off11) s) fun t =>
      Effect s t [] s.cpu.cpsr (BitVec.ofInt 32 (s.cpu.pc.toNat + 4 + 2 * off11.toInt)) ∧
      t.cycles = s.cycles + s.codeCost + t.refillCost) ∧
    (Completes (exec (.tBlHigh off11) s) fun t =>
      Effect s t [(s.here 14#4, BitVec.ofInt 32 (s.cpu.pc.toNat + 4 + 4096 * off11.toInt))] s.cpu.cpsr (s.cpu.pc + 2#32) ∧
      t.cycles = s.cycles + s.codeCost) ∧
    (Completes (exec (.tBlLow off11) s) fun t =>
      Effect s t [(s.here 14#4, (s.cpu.pc + 2#32) + 1#32)] s.cpu.cpsr
        (BitVec.ofNat 32 (lr.toNat + 2 * off11.toNat) &&& 0xFFFFFFFE#32) ∧
      t.cycles = s.cycles + s.codeCost + t.refillCost)

/-! ### Devices, launch and reset -/

/-- Stores to the interrupt registers (R810, R812): IE and IME take their bits, a store to IF clears the flags whose bits
are 1, and a 32-bit store at IE does both; no such store changes anything else. -/
def Obligations.InterruptRegisterStores : Prop :=
  ∀ (s : State) (v : Word),
    IoWrite s 0x04000200#32 .half v (fun r t => t = { r with irq := { s.irq with ie := v.setWidth 14 } }) ∧
    IoWrite s 0x04000202#32 .half v (fun r t => t = { r with irq := { s.irq with ifl := s.irq.ifl &&& ~~~v.setWidth 14 } }) ∧
    IoWrite s 0x04000208#32 .half v (fun r t => t = { r with irq := { s.irq with ime := v.getLsbD 0 } }) ∧
    IoWrite s 0x04000200#32 .word v (fun r t => t = { r with irq :=
      { s.irq with ie := v.setWidth 14, ifl := s.irq.ifl &&& ~~~v.extractLsb' 16 14 } })

/-- WAITCNT and the wait states of ROM and save memory it selects (R180, R183, R184): bits 15 and 13 are not stored; a
16-bit access costs 1 plus the table's first or second access, a 32-bit one is two of them. That the EEPROM port in slot
0x0D costs what its ROM region does is the model's reading (log entry 14). -/
def Obligations.WaitStatesFollowWaitcnt : Prop :=
  ∀ s : State,
    (∀ v : Word, IoWrite s 0x04000204#32 .half v (fun r t => t = { r with waitcnt := v.setWidth 16 &&& 0x5FFF#16 })) ∧
    (∀ a : Word,
      let first := fun shift : Nat => [4, 3, 2, 8][s.waitcnt.toNat / 2 ^ shift % 4]!
      let second := fun (shift n : Nat) => if s.waitcnt.getLsbD shift then 1 else n
      let costs := fun (n m : Nat) => ∀ w, w ≠ .word →
        s.cost a w false = 1 + n ∧ s.cost a w true = 1 + m ∧
        s.cost a .word false = s.cost a w false + s.cost a w true ∧ s.cost a .word true = 2 * s.cost a w true
      (s.region a = .rom0 → costs (first 2) (second 4 2)) ∧ (s.region a = .rom1 → costs (first 5) (second 7 4)) ∧
      (s.region a = .rom2 → costs (first 8) (second 10 8)) ∧
      (s.region a = .save → ∀ w seq, s.cost a w seq = 1 + first 0))

/-- A running timer that does not cascade (R922, R926, R930): a read of TMnCNT_L gives the start value plus the elapsed
time over the prescaler, at the time of the access, until the counter passes 0xFFFF, and then counts on from the reload
value; the overflow of timer 3 reloads it, schedules the next one and raises IF bit 6 if its IRQ bit is set. -/
def Obligations.TimersCount : Prop :=
  (∀ (s : State) (n : Fin 4) (seq : Bool),
    let t := s.timer n
    let scale := [1, 64, 256, 1024][(t.ctl.extractLsb' 0 2).toNat]!
    let k := t.start + (s.cycles + 1 - t.t0) / scale
    t.running = true → t.cascading n = false → t.t0 ≤ s.cycles →
    ((s.memRead (0x04000100#32 + BitVec.ofNat 32 (4 * n.val)) .half seq).1.toNat =
      if k < 0x10000 then k else t.reload.toNat + (k - 0x10000) % (0x10000 - t.reload.toNat))) ∧
  (∀ (s : State) (win : Window) (time : Nat),
    let t := s.timer 3
    let scale := [1, 64, 256, 1024][(t.ctl.extractLsb' 0 2).toNat]!
    t.cascading 3 = false →
    ∃ u, s.event win .timer3 time = .ok u ∧
      u = { s with timers := u.timers, irq := u.irq } ∧ (∀ n, n ≠ 3 → u.timer n = s.timer n) ∧
      u.timer 3 = { t with
        count := t.reload.toNat, start := t.reload.toNat, t0 := time,
        next := some (time + (0x10000 - t.reload.toNat) * scale) } ∧
      u.irq = { s.irq with ifl := if t.irq then s.irq.ifl ||| 0x40#14 else s.irq.ifl })

/-- A DMA transfer of one word between RAM addresses (R885-R889): it bills two internal cycles and the two accesses, the
destination's cells take the word at the source, the pointers step as the control says, the channel without repeat is
disabled and its end interrupt raised if asked; nothing else changes. Element addresses are used aligned (log entry
27). -/
def Obligations.DmaMovesOneWord : Prop :=
  ∀ (s : State) (win : Window) (n : Fin 4),
    let d := s.dmaChan n
    d.enabled = true → d.srcCtl ≠ 3#2 → d.wide = true → d.feedsFifo n = false → d.icount = 1 → d.repeats = false →
    s.ramAddress d.isrc = true → s.ramAddress d.idst = true → win.hit (Width.word.align d.idst) 4 = false →
    let move := fun ctl : BitVec 2 => if ctl = 1#2 then -4#32 else if ctl = 2#2 then 0#32 else 4#32
    ∃ t, s.transfer win n = .ok t ∧
      t = { s with cycles := t.cycles, mem := t.mem, icache := t.icache, dma := t.dma, irq := t.irq } ∧
      t.cycles = s.cycles + 2 + s.cost d.isrc .word false + s.cost d.idst .word false ∧
      WroteBytes s t (s.storedCells d.idst .word (s.wordAt d.isrc)) ∧
      (∀ m, m ≠ n → t.dmaChan m = s.dmaChan m) ∧
      t.dmaChan n = { d with
        isrc := d.isrc + move d.srcCtl, idst := d.idst + move d.dstCtl, icount := 0, cntH := d.cntH &&& 0x7FFF#16 } ∧
      t.irq = { s.irq with ifl := if d.irq then s.irq.ifl ||| BitVec.twoPow 14 (8 + n.val) else s.irq.ifl }

/-- The line machine (R952, R995, R1000-R1002), where no video DMA is armed: H-blank starts 226 cycles before the next
line and raises IF bit 1 if asked; the next line starts a draw of 1006 cycles on the line after, modulo 228, raising bit
0 on line 160 and bit 2 on the compared line if asked, and line 160 hands the composed frame to the host (R996; into
State.output, the model's own field, log entry 20); registers and memory of the machine stay. -/
def Obligations.LinesAdvance : Prop :=
  ∀ (s : State) (win : Window) (time : Nat),
    (∀ n, (s.dmaChan n).enabled = false ∨ (s.dmaChan n).timing ∉ [1#2, 2#2]) →
    ∃ t, s.event win .ppu time = .ok t ∧ t = { s with ppu := t.ppu, irq := t.irq, output := t.output } ∧
      t.irq.ie = s.irq.ie ∧ t.irq.ime = s.irq.ime ∧
      (s.ppu.phase = .hdraw →
        t.ppu.phase = .hblank ∧ t.ppu.nextPpu = time + 226 ∧ t.ppu.vcount = s.ppu.vcount ∧ t.output = s.output ∧
        t.irq.ifl = if s.ppu.dispstat.getLsbD 4 then s.irq.ifl ||| 2#14 else s.irq.ifl) ∧
      (s.ppu.phase = .hblank →
        let line := (s.ppu.vcount + 1) % 228
        t.ppu.phase = .hdraw ∧ t.ppu.nextPpu = time + 1006 ∧ t.ppu.vcount = line ∧ t.output.audio = s.output.audio ∧
        t.output.frames = (if line = 160 then [s.ppu.frame] else []) ++ s.output.frames ∧
        t.irq.ifl = s.irq.ifl ||| (if line = 160 ∧ s.ppu.dispstat.getLsbD 3 = true then 1#14 else 0#14) |||
          (if s.ppu.dispstat.getLsbD 5 = true ∧ line = (s.ppu.dispstat.extractLsb' 8 8).toNat then 4#14 else 0#14))

/-- Launch (R1136, R1180, R1186): an image shorter than 0xC0 bytes or without 0x96 at 0xB2 is rejected; otherwise a
DirectBoot state runs in System mode from the cartridge with every register and SPSR written, the three stack pointers
set and the affine, bias and first-boot registers as listed, and a ColdReset state starts at the reset vector in the
mode, state and masks of reset, with any flags (R91), no register or SPSR written, and first-boot flag 0. -/
def Obligations.LaunchStates : Prop :=
  ∀ x : LaunchInput,
    (launch x = none ↔ x.rom.length < 0xC0 ∨ x.rom[0xB2]? ≠ some 0x96#8) ∧
    (∀ s, launch x = some s →
      s.cycles = 0 ∧ s.fault = none ∧ s.halted = false ∧ s.stopped = false ∧ s.icache = [] ∧
      s.biosLen = x.bios.length ∧ s.romLen = x.rom.length ∧
      (∀ k b, x.bios[k]? = some b → x.bios.length ≤ 16384 → s.mem.byte k = b) ∧
      (x.directBoot = false →
        s.cpu.pc = 0#32 ∧ s.postflg = false ∧ s.cpu.cpsr.mode = modeSvc ∧ s.cpu.cpsr.i = true ∧ s.cpu.cpsr.f = true ∧
        s.cpu.cpsr.t = false ∧ ∀ r, s.isWritten r = false) ∧
      (x.directBoot = true →
        s.cpu.pc = 0x08000000#32 ∧ s.cpu.cpsr.toWord = 0x1F#32 ∧ (∀ r, s.isWritten r = true) ∧ (∀ k, (s.cpu.spsr.get k).toWord = 0#32) ∧
        (∀ (m : BitVec 5) (i : RegNo), legalMode m = true → i ≠ 15#4 →
          s.regOf m i =
            if i ≠ 13#4 then 0#32
            else if m = modeUsr ∨ m = modeSys then 0x03007F00#32
            else if m = modeIrq then 0x03007FA0#32
            else if m = modeSvc then 0x03007FE0#32 else 0#32) ∧
        (∀ k, (s.ppu.affine.get k).pa = 0x100#16 ∧ (s.ppu.affine.get k).pd = 0x100#16) ∧
        s.apu.bias = 0x200#16 ∧ s.postflg = true))

/-- The reset values the spec states (R120, R121, R872, R921, R952, R1051, R1140, R1155, R1180): Supervisor mode in ARM
state with both interrupts masked at address 0; cycle 0, running; DISPCNT 0x0080 and every other video, sound, DMA,
timer, serial, key, interrupt, wait-state and GPIO register 0, also those inside the devices; the save protocols and the
instruction cache idle; line 0 drawing, with its H-blank at 1006, the frame sequencer's first step at 32768 and the
first output sample at 0; no frame or sample handed over (the model's own field, log entry 20). What R952 calls draws,
the model's register choices (log entries 2 and 3) and its image lengths are not among them. -/
def Obligations.ResetValues : Prop :=
  let s := State.reset
  (s.cpu.cpsr.mode = modeSvc ∧ s.cpu.cpsr.i = true ∧ s.cpu.cpsr.f = true ∧ s.cpu.cpsr.t = false ∧ s.cpu.pc = 0#32) ∧
  (s.cycles = 0 ∧ s.halted = false ∧ s.stopped = false ∧ s.fault = none) ∧
  (s.irq.ie = 0#14 ∧ s.irq.ifl = 0#14 ∧ s.irq.ime = false ∧ s.waitcnt = 0#16 ∧ s.keycnt = 0#16 ∧ s.postflg = false) ∧
  (s.ppu.dispcnt = 0x0080#16 ∧ s.ppu.dispstat = 0#16 ∧ s.ppu.vcount = 0 ∧ s.ppu.phase = .hdraw ∧ s.ppu.nextPpu = 1006 ∧
    s.ppu.win0h = 0#16 ∧ s.ppu.win1h = 0#16 ∧ s.ppu.win0v = 0#16 ∧ s.ppu.win1v = 0#16 ∧ s.ppu.winin = 0#16 ∧
    s.ppu.winout = 0#16 ∧ s.ppu.mosaic = 0#16 ∧ s.ppu.bldcnt = 0#16 ∧ s.ppu.bldalpha = 0#16 ∧ s.ppu.bldy = 0#5) ∧
  (∀ k : Fin 4, s.ppu.bgcnt.get k = 0#16 ∧ s.ppu.hofs.get k = 0#9 ∧ s.ppu.vofs.get k = 0#9) ∧
  (∀ k : Fin 2,
    let b := s.ppu.affine.get k
    b.pa = 0#16 ∧ b.pb = 0#16 ∧ b.pc = 0#16 ∧ b.pd = 0#16 ∧ b.x = 0#28 ∧ b.y = 0#28 ∧ b.xInt = 0#28 ∧ b.yInt = 0#28 ∧
    b.xm = 0#28 ∧ b.ym = 0#28) ∧
  (s.apu.cnt1L = 0#16 ∧ s.apu.cnt1H = 0#16 ∧ s.apu.cnt1X = 0#16 ∧ s.apu.cnt2L = 0#16 ∧ s.apu.cnt2H = 0#16 ∧
    s.apu.cnt3L = 0#16 ∧ s.apu.cnt3H = 0#16 ∧ s.apu.cnt3X = 0#16 ∧ s.apu.cnt4L = 0#16 ∧ s.apu.cnt4H = 0#16 ∧
    s.apu.cntL = 0#16 ∧ s.apu.cntH = 0#16 ∧ s.apu.master = false ∧ s.apu.bias = 0#16) ∧
  (∀ k : Fin 4,
    let c := s.apu.ch.get k
    c.on = false ∧ c.len = 0 ∧ c.vol = 0 ∧ c.envt = 0 ∧ c.phaseT = 0) ∧
  (∀ k : Fin 2, s.apu.dutyPos.get k = 0#3) ∧
  (s.apu.shadow = 0#11 ∧ s.apu.sweept = 0 ∧ s.apu.sweepOn = false ∧ s.apu.wavePos = 0#5 ∧ s.apu.waveBank = false ∧
    s.apu.lfsr = 0#15 ∧ s.apu.fifoA = [] ∧ s.apu.fifoB = [] ∧ s.apu.curA = 0#8 ∧ s.apu.curB = 0#8 ∧ s.apu.fsStep = 0#3 ∧
    s.apu.nextFs = 32768 ∧ s.apu.nextSmp = 0) ∧
  (∀ n : Fin 4,
    let d := s.dmaChan n
    d.sad = 0#32 ∧ d.dad = 0#32 ∧ d.cntL = 0#16 ∧ d.cntH = 0#16 ∧ d.isrc = 0#32 ∧ d.idst = 0#32 ∧ d.icount = 0) ∧
  (s.dma.held = [] ∧ s.dma.running = none) ∧
  (∀ n : Fin 4,
    let t := s.timer n
    t.reload = 0#16 ∧ t.start = 0 ∧ t.t0 = 0 ∧ t.count = 0 ∧ t.ctl = 0#8 ∧ t.next = none) ∧
  (s.sio.multi0 = 0#16 ∧ s.sio.multi1 = 0#16 ∧ s.sio.multi2 = 0#16 ∧ s.sio.multi3 = 0#16 ∧ s.sio.siocnt = 0#16 ∧
    s.sio.send = 0#16 ∧ s.sio.rcnt = 0#16 ∧ s.sio.joycnt = 0#16 ∧ s.sio.recvL = 0#16 ∧ s.sio.recvH = 0#16 ∧
    s.sio.transL = 0#16 ∧ s.sio.transH = 0#16 ∧ s.sio.joystat = 0#16) ∧
  (s.gpio.data = 0#4 ∧ s.gpio.dir = 0#4 ∧ s.gpio.readable = false ∧ s.gpio.writes = []) ∧
  (s.save.flash.stage = .idle ∧ s.save.flash.idMode = false ∧ s.save.flash.pending = .none ∧ s.save.flash.bank = false ∧
    s.save.eeprom.inBits = [] ∧ s.save.eeprom.out = none) ∧
  (s.icache = [] ∧ s.output.frames = [] ∧ s.output.audio = [])
end

