-- ==== Sys2Proof/Laws/Memory.lean ====
section
/-! SUPPORT. Memory: a read after a write, and that every memory operation keeps the canonical form. -/

namespace Sys2Proof.Machine

/-! ### Read after write -/

theorem Memory.find_set (m : Memory) (k : Nat) (v : Byte) (j : Nat) :
    (m.set k v).find j = if j = k then some v else m.find j := by
  induction m with
  | nil => simp [Memory.set, Memory.find, eq_comm]
  | cons c m ih => grind [Memory.set, Memory.find]

theorem Memory.byte_set (m : Memory) (k : Nat) (v : Byte) (j : Nat) :
    (m.set k v).byte j = if j = k then v else m.byte j := by
  simp only [Memory.byte, Memory.find_set]; split <;> simp

/-- A byte after a write: the stored byte inside the written range, the old one outside it. -/
theorem Memory.byte_write (m : Memory) (k : Nat) (v : Word) (w : Width) (j : Nat) :
    (m.write k v w).byte j = if k ≤ j ∧ j < k + w.bytes then byteOf v (j - k) else m.byte j := by
  cases w <;> grind [Memory.write, Memory.byte_set, Width.bytes]

/-- A byte after listing bytes from an address on. -/
theorem Memory.byte_load_of_ne (bs : List Byte) (m : Memory) (k j : Nat) (h : j < k ∨ k + bs.length ≤ j) :
    (m.load k bs).byte j = m.byte j := by
  induction bs generalizing m k with
  | nil => rfl
  | cons b bs ih =>
    rw [Memory.load, ih _ _ (by simp at h; omega), Memory.byte_set, if_neg (by simp at h; omega)]

/-- A byte outside an erased range. -/
theorem Memory.byte_erase_of_ne (m : Memory) (k n j : Nat) (h : j < k ∨ k + n ≤ j) :
    (m.erase k n).byte j = m.byte j := by
  induction n with
  | zero => rfl
  | succ n ih => rw [Memory.erase, Memory.byte_set, if_neg (by omega), ih (by omega)]

theorem and_byte_mask (v : Word) : v &&& 0xFF#32 = (v.setWidth 8).setWidth 32 := by
  apply BitVec.eq_of_toNat_eq
  have h := Nat.and_two_pow_sub_one_eq_mod v.toNat 8
  simp only [BitVec.toNat_and, BitVec.toNat_setWidth]
  rw [show (0xFF#32).toNat = 2 ^ 8 - 1 from rfl, h]; omega

theorem and_half_mask (v : Word) : v &&& 0xFFFF#32 = (v.setWidth 16).setWidth 32 := by
  apply BitVec.eq_of_toNat_eq
  have h := Nat.and_two_pow_sub_one_eq_mod v.toNat 16
  simp only [BitVec.toNat_and, BitVec.toNat_setWidth]
  rw [show (0xFFFF#32).toNat = 2 ^ 16 - 1 from rfl, h]; omega

theorem word_of_bytes (v : Word) :
    v.extractLsb' 24 8 ++ v.extractLsb' 16 8 ++ v.extractLsb' 8 8 ++ v.extractLsb' 0 8 = v := by
  ext i hi; simp only [BitVec.getElem_append]; grind

theorem half_of_bytes (v : Word) : v.extractLsb' 8 8 ++ v.extractLsb' 0 8 = v.setWidth 16 := by
  ext i hi; simp only [BitVec.getElem_append]; grind

/-- A read of the bytes just written gives the value, narrowed to the width. -/
theorem Memory.read_write (m : Memory) (k : Nat) (v : Word) (w : Width) : (m.write k v w).read k w = w.trim v := by
  cases w
  · simp only [Memory.read, Memory.write, Memory.byte_set, Width.trim, and_byte_mask, if_true]
    congr 1
  · simp only [Memory.read, Memory.write, Memory.byte_set, Width.trim, and_half_mask, if_true]
    rw [if_neg (by omega)]
    exact congrArg _ (half_of_bytes v)
  · simp only [Memory.read, Memory.write, Memory.byte_set, Width.trim, if_true]
    repeat rw [if_neg (by omega)]
    exact word_of_bytes v

/-- A read depends only on the bytes it reads. -/
theorem Memory.read_congr (m m' : Memory) (k : Nat) (w : Width)
    (h : ∀ j, k ≤ j → j < k + w.bytes → m'.byte j = m.byte j) : m'.read k w = m.read k w := by
  cases w <;> simp only [Memory.read, Width.bytes] at h ⊢ <;> grind

/-! ### The canonical form -/

theorem Memory.wf_iff (m : Memory) : m.wf = Memory.risingFrom 0 m := by
  unfold Memory.wf Memory.unlisted
  have : (m.all fun c => some c.2 != none) = true := by simp
  rw [this, Bool.and_true]

theorem Memory.risingFrom_mono (m : Memory) (n n' : Nat) (h : n' ≤ n) (hm : Memory.risingFrom n m = true) :
    Memory.risingFrom n' m = true := by
  cases m with
  | nil => rfl
  | cons c m => obtain ⟨a, b⟩ := c; simp [Memory.risingFrom] at hm ⊢; exact ⟨by omega, hm.2⟩

theorem Memory.risingFrom_set (m : Memory) (n k : Nat) (v : Byte) (h : n ≤ k) (hm : Memory.risingFrom n m = true) :
    Memory.risingFrom n (m.set k v) = true := by
  induction m generalizing n with
  | nil => simp [Memory.set, Memory.risingFrom, h]
  | cons c m ih =>
    obtain ⟨a, b⟩ := c
    simp only [Memory.risingFrom, Bool.and_eq_true, decide_eq_true_eq] at hm
    simp only [Memory.set]
    split
    · simp only [Memory.risingFrom, Bool.and_eq_true, decide_eq_true_eq]; exact ⟨h, by omega, hm.2⟩
    · split
      · subst_vars; simp only [Memory.risingFrom, Bool.and_eq_true, decide_eq_true_eq]; exact ⟨h, hm.2⟩
      · simp only [Memory.risingFrom, Bool.and_eq_true, decide_eq_true_eq]
        exact ⟨hm.1, ih (a + 1) (by omega) hm.2⟩

theorem Memory.wf_set (m : Memory) (k : Nat) (v : Byte) (h : m.wf = true) : (m.set k v).wf = true := by
  rw [Memory.wf_iff] at *; exact Memory.risingFrom_set m 0 k v (Nat.zero_le _) h

theorem Memory.wf_write (m : Memory) (k : Nat) (v : Word) (w : Width) (h : m.wf = true) : (m.write k v w).wf = true := by
  cases w <;> simp only [Memory.write] <;> repeat' apply Memory.wf_set
  all_goals exact h

theorem Memory.wf_load (bs : List Byte) (m : Memory) (k : Nat) (h : m.wf = true) : (m.load k bs).wf = true := by
  induction bs generalizing m k with
  | nil => exact h
  | cons b bs ih => exact ih _ _ (Memory.wf_set m k b h)

theorem Memory.wf_erase (m : Memory) (k n : Nat) (h : m.wf = true) : (m.erase k n).wf = true := by
  induction n with
  | zero => exact h
  | succ n ih => exact Memory.wf_set _ _ _ ih

theorem wf_reset : State.reset.mem.wf = true := rfl

theorem cellsFrom_rising (bs : List Byte) (k : Nat) (m : Memory) (h : Memory.risingFrom (k + bs.length) m = true) :
    Memory.risingFrom k (cellsFrom k bs ++ m) = true := by
  induction bs generalizing k with
  | nil => simpa [cellsFrom] using h
  | cons b bs ih =>
    simp only [cellsFrom, List.cons_append, Memory.risingFrom, Nat.le_refl, decide_true, Bool.true_and]
    exact ih (k + 1) (by simpa [Nat.add_assoc, Nat.add_comm 1] using h)

/-- Memory at launch has the canonical form, for images of the lengths R15 allows. -/
theorem LaunchInput.memory_wf (x : LaunchInput) (h : x.ok = true) : x.memory.wf = true := by
  simp only [LaunchInput.ok, Bool.and_eq_true, decide_eq_true_eq] at h
  rw [Memory.wf_iff, LaunchInput.memory, List.append_assoc]
  refine cellsFrom_rising _ _ _ (Memory.risingFrom_mono _ 0x08000000 _ (by omega) ?_)
  refine cellsFrom_rising _ _ _ (Memory.risingFrom_mono _ 0x0E000000 _ (by omega) ?_)
  have := cellsFrom_rising (blobBytes x.backend.1 (x.saveBlob.getD [])) saveBase [] rfl
  simpa using this

end Sys2Proof.Machine
end

