-- ==== Sys2Proof/Laws/State.lean ====
section
/-! SUPPORT. One lemma per field per update of State, each true by rfl or by the cases of the update, so that no later
proof unfolds a record update. -/

namespace Sys2Proof.Machine

variable (s : State)

@[simp] theorem State.bill_cpu (k : Nat) : (s.bill k).cpu = s.cpu := rfl
@[simp] theorem State.bill_cycles (k : Nat) : (s.bill k).cycles = s.cycles + k := rfl
@[simp] theorem State.bill_halted (k : Nat) : (s.bill k).halted = s.halted := rfl
@[simp] theorem State.bill_stopped (k : Nat) : (s.bill k).stopped = s.stopped := rfl
@[simp] theorem State.bill_fault (k : Nat) : (s.bill k).fault = s.fault := rfl
@[simp] theorem State.bill_mem (k : Nat) : (s.bill k).mem = s.mem := rfl
@[simp] theorem State.bill_biosLen (k : Nat) : (s.bill k).biosLen = s.biosLen := rfl
@[simp] theorem State.bill_romLen (k : Nat) : (s.bill k).romLen = s.romLen := rfl
@[simp] theorem State.bill_params (k : Nat) : (s.bill k).params = s.params := rfl
@[simp] theorem State.bill_draws (k : Nat) : (s.bill k).draws = s.draws := rfl
@[simp] theorem State.bill_icache (k : Nat) : (s.bill k).icache = s.icache := rfl
@[simp] theorem State.bill_irq (k : Nat) : (s.bill k).irq = s.irq := rfl
@[simp] theorem State.bill_ppu (k : Nat) : (s.bill k).ppu = s.ppu := rfl
@[simp] theorem State.bill_apu (k : Nat) : (s.bill k).apu = s.apu := rfl
@[simp] theorem State.bill_dma (k : Nat) : (s.bill k).dma = s.dma := rfl
@[simp] theorem State.bill_timers (k : Nat) : (s.bill k).timers = s.timers := rfl
@[simp] theorem State.bill_keycnt (k : Nat) : (s.bill k).keycnt = s.keycnt := rfl
@[simp] theorem State.bill_sio (k : Nat) : (s.bill k).sio = s.sio := rfl
@[simp] theorem State.bill_waitcnt (k : Nat) : (s.bill k).waitcnt = s.waitcnt := rfl
@[simp] theorem State.bill_postflg (k : Nat) : (s.bill k).postflg = s.postflg := rfl
@[simp] theorem State.bill_gpio (k : Nat) : (s.bill k).gpio = s.gpio := rfl
@[simp] theorem State.bill_save (k : Nat) : (s.bill k).save = s.save := rfl
@[simp] theorem State.bill_output (k : Nat) : (s.bill k).output = s.output := rfl

@[simp] theorem State.setMem_cpu (m : Memory) : (s.setMem m).cpu = s.cpu := rfl
@[simp] theorem State.setMem_cycles (m : Memory) : (s.setMem m).cycles = s.cycles := rfl
@[simp] theorem State.setMem_halted (m : Memory) : (s.setMem m).halted = s.halted := rfl
@[simp] theorem State.setMem_stopped (m : Memory) : (s.setMem m).stopped = s.stopped := rfl
@[simp] theorem State.setMem_fault (m : Memory) : (s.setMem m).fault = s.fault := rfl
@[simp] theorem State.setMem_mem (m : Memory) : (s.setMem m).mem = m := rfl
@[simp] theorem State.setMem_biosLen (m : Memory) : (s.setMem m).biosLen = s.biosLen := rfl
@[simp] theorem State.setMem_romLen (m : Memory) : (s.setMem m).romLen = s.romLen := rfl
@[simp] theorem State.setMem_params (m : Memory) : (s.setMem m).params = s.params := rfl
@[simp] theorem State.setMem_draws (m : Memory) : (s.setMem m).draws = s.draws := rfl
@[simp] theorem State.setMem_icache (m : Memory) : (s.setMem m).icache = s.icache := rfl
@[simp] theorem State.setMem_irq (m : Memory) : (s.setMem m).irq = s.irq := rfl
@[simp] theorem State.setMem_ppu (m : Memory) : (s.setMem m).ppu = s.ppu := rfl
@[simp] theorem State.setMem_apu (m : Memory) : (s.setMem m).apu = s.apu := rfl
@[simp] theorem State.setMem_dma (m : Memory) : (s.setMem m).dma = s.dma := rfl
@[simp] theorem State.setMem_timers (m : Memory) : (s.setMem m).timers = s.timers := rfl
@[simp] theorem State.setMem_keycnt (m : Memory) : (s.setMem m).keycnt = s.keycnt := rfl
@[simp] theorem State.setMem_sio (m : Memory) : (s.setMem m).sio = s.sio := rfl
@[simp] theorem State.setMem_waitcnt (m : Memory) : (s.setMem m).waitcnt = s.waitcnt := rfl
@[simp] theorem State.setMem_postflg (m : Memory) : (s.setMem m).postflg = s.postflg := rfl
@[simp] theorem State.setMem_gpio (m : Memory) : (s.setMem m).gpio = s.gpio := rfl
@[simp] theorem State.setMem_save (m : Memory) : (s.setMem m).save = s.save := rfl
@[simp] theorem State.setMem_output (m : Memory) : (s.setMem m).output = s.output := rfl

@[simp] theorem State.setPc_cpu (a : Word) : (s.setPc a).cpu = { s.cpu with pc := a } := rfl
@[simp] theorem State.setPc_cycles (a : Word) : (s.setPc a).cycles = s.cycles := rfl
@[simp] theorem State.setPc_halted (a : Word) : (s.setPc a).halted = s.halted := rfl
@[simp] theorem State.setPc_stopped (a : Word) : (s.setPc a).stopped = s.stopped := rfl
@[simp] theorem State.setPc_fault (a : Word) : (s.setPc a).fault = s.fault := rfl
@[simp] theorem State.setPc_mem (a : Word) : (s.setPc a).mem = s.mem := rfl
@[simp] theorem State.setPc_biosLen (a : Word) : (s.setPc a).biosLen = s.biosLen := rfl
@[simp] theorem State.setPc_romLen (a : Word) : (s.setPc a).romLen = s.romLen := rfl
@[simp] theorem State.setPc_params (a : Word) : (s.setPc a).params = s.params := rfl
@[simp] theorem State.setPc_draws (a : Word) : (s.setPc a).draws = s.draws := rfl
@[simp] theorem State.setPc_icache (a : Word) : (s.setPc a).icache = s.icache := rfl
@[simp] theorem State.setPc_irq (a : Word) : (s.setPc a).irq = s.irq := rfl
@[simp] theorem State.setPc_ppu (a : Word) : (s.setPc a).ppu = s.ppu := rfl
@[simp] theorem State.setPc_apu (a : Word) : (s.setPc a).apu = s.apu := rfl
@[simp] theorem State.setPc_dma (a : Word) : (s.setPc a).dma = s.dma := rfl
@[simp] theorem State.setPc_timers (a : Word) : (s.setPc a).timers = s.timers := rfl
@[simp] theorem State.setPc_keycnt (a : Word) : (s.setPc a).keycnt = s.keycnt := rfl
@[simp] theorem State.setPc_sio (a : Word) : (s.setPc a).sio = s.sio := rfl
@[simp] theorem State.setPc_waitcnt (a : Word) : (s.setPc a).waitcnt = s.waitcnt := rfl
@[simp] theorem State.setPc_postflg (a : Word) : (s.setPc a).postflg = s.postflg := rfl
@[simp] theorem State.setPc_gpio (a : Word) : (s.setPc a).gpio = s.gpio := rfl
@[simp] theorem State.setPc_save (a : Word) : (s.setPc a).save = s.save := rfl
@[simp] theorem State.setPc_output (a : Word) : (s.setPc a).output = s.output := rfl

@[simp] theorem State.setCpsr_cpu (p : Psr) : (s.setCpsr p).cpu = { s.cpu with cpsr := p } := rfl
@[simp] theorem State.setCpsr_cycles (p : Psr) : (s.setCpsr p).cycles = s.cycles := rfl
@[simp] theorem State.setCpsr_halted (p : Psr) : (s.setCpsr p).halted = s.halted := rfl
@[simp] theorem State.setCpsr_stopped (p : Psr) : (s.setCpsr p).stopped = s.stopped := rfl
@[simp] theorem State.setCpsr_fault (p : Psr) : (s.setCpsr p).fault = s.fault := rfl
@[simp] theorem State.setCpsr_mem (p : Psr) : (s.setCpsr p).mem = s.mem := rfl
@[simp] theorem State.setCpsr_biosLen (p : Psr) : (s.setCpsr p).biosLen = s.biosLen := rfl
@[simp] theorem State.setCpsr_romLen (p : Psr) : (s.setCpsr p).romLen = s.romLen := rfl
@[simp] theorem State.setCpsr_params (p : Psr) : (s.setCpsr p).params = s.params := rfl
@[simp] theorem State.setCpsr_draws (p : Psr) : (s.setCpsr p).draws = s.draws := rfl
@[simp] theorem State.setCpsr_icache (p : Psr) : (s.setCpsr p).icache = s.icache := rfl
@[simp] theorem State.setCpsr_irq (p : Psr) : (s.setCpsr p).irq = s.irq := rfl
@[simp] theorem State.setCpsr_ppu (p : Psr) : (s.setCpsr p).ppu = s.ppu := rfl
@[simp] theorem State.setCpsr_apu (p : Psr) : (s.setCpsr p).apu = s.apu := rfl
@[simp] theorem State.setCpsr_dma (p : Psr) : (s.setCpsr p).dma = s.dma := rfl
@[simp] theorem State.setCpsr_timers (p : Psr) : (s.setCpsr p).timers = s.timers := rfl
@[simp] theorem State.setCpsr_keycnt (p : Psr) : (s.setCpsr p).keycnt = s.keycnt := rfl
@[simp] theorem State.setCpsr_sio (p : Psr) : (s.setCpsr p).sio = s.sio := rfl
@[simp] theorem State.setCpsr_waitcnt (p : Psr) : (s.setCpsr p).waitcnt = s.waitcnt := rfl
@[simp] theorem State.setCpsr_postflg (p : Psr) : (s.setCpsr p).postflg = s.postflg := rfl
@[simp] theorem State.setCpsr_gpio (p : Psr) : (s.setCpsr p).gpio = s.gpio := rfl
@[simp] theorem State.setCpsr_save (p : Psr) : (s.setCpsr p).save = s.save := rfl
@[simp] theorem State.setCpsr_output (p : Psr) : (s.setCpsr p).output = s.output := rfl

@[simp] theorem State.setTimer_cpu (n : Fin 4) (t : Timer) : (s.setTimer n t).cpu = s.cpu := rfl
@[simp] theorem State.setTimer_cycles (n : Fin 4) (t : Timer) : (s.setTimer n t).cycles = s.cycles := rfl
@[simp] theorem State.setTimer_halted (n : Fin 4) (t : Timer) : (s.setTimer n t).halted = s.halted := rfl
@[simp] theorem State.setTimer_stopped (n : Fin 4) (t : Timer) : (s.setTimer n t).stopped = s.stopped := rfl
@[simp] theorem State.setTimer_fault (n : Fin 4) (t : Timer) : (s.setTimer n t).fault = s.fault := rfl
@[simp] theorem State.setTimer_mem (n : Fin 4) (t : Timer) : (s.setTimer n t).mem = s.mem := rfl
@[simp] theorem State.setTimer_biosLen (n : Fin 4) (t : Timer) : (s.setTimer n t).biosLen = s.biosLen := rfl
@[simp] theorem State.setTimer_romLen (n : Fin 4) (t : Timer) : (s.setTimer n t).romLen = s.romLen := rfl
@[simp] theorem State.setTimer_params (n : Fin 4) (t : Timer) : (s.setTimer n t).params = s.params := rfl
@[simp] theorem State.setTimer_draws (n : Fin 4) (t : Timer) : (s.setTimer n t).draws = s.draws := rfl
@[simp] theorem State.setTimer_icache (n : Fin 4) (t : Timer) : (s.setTimer n t).icache = s.icache := rfl
@[simp] theorem State.setTimer_irq (n : Fin 4) (t : Timer) : (s.setTimer n t).irq = s.irq := rfl
@[simp] theorem State.setTimer_ppu (n : Fin 4) (t : Timer) : (s.setTimer n t).ppu = s.ppu := rfl
@[simp] theorem State.setTimer_apu (n : Fin 4) (t : Timer) : (s.setTimer n t).apu = s.apu := rfl
@[simp] theorem State.setTimer_dma (n : Fin 4) (t : Timer) : (s.setTimer n t).dma = s.dma := rfl
@[simp] theorem State.setTimer_timers (n : Fin 4) (t : Timer) : (s.setTimer n t).timers = s.timers.set n.val t n.isLt := rfl
@[simp] theorem State.setTimer_keycnt (n : Fin 4) (t : Timer) : (s.setTimer n t).keycnt = s.keycnt := rfl
@[simp] theorem State.setTimer_sio (n : Fin 4) (t : Timer) : (s.setTimer n t).sio = s.sio := rfl
@[simp] theorem State.setTimer_waitcnt (n : Fin 4) (t : Timer) : (s.setTimer n t).waitcnt = s.waitcnt := rfl
@[simp] theorem State.setTimer_postflg (n : Fin 4) (t : Timer) : (s.setTimer n t).postflg = s.postflg := rfl
@[simp] theorem State.setTimer_gpio (n : Fin 4) (t : Timer) : (s.setTimer n t).gpio = s.gpio := rfl
@[simp] theorem State.setTimer_save (n : Fin 4) (t : Timer) : (s.setTimer n t).save = s.save := rfl
@[simp] theorem State.setTimer_output (n : Fin 4) (t : Timer) : (s.setTimer n t).output = s.output := rfl

@[simp] theorem State.setDmaChan_cpu (n : Fin 4) (d : DmaChannel) : (s.setDmaChan n d).cpu = s.cpu := rfl
@[simp] theorem State.setDmaChan_cycles (n : Fin 4) (d : DmaChannel) : (s.setDmaChan n d).cycles = s.cycles := rfl
@[simp] theorem State.setDmaChan_halted (n : Fin 4) (d : DmaChannel) : (s.setDmaChan n d).halted = s.halted := rfl
@[simp] theorem State.setDmaChan_stopped (n : Fin 4) (d : DmaChannel) : (s.setDmaChan n d).stopped = s.stopped := rfl
@[simp] theorem State.setDmaChan_fault (n : Fin 4) (d : DmaChannel) : (s.setDmaChan n d).fault = s.fault := rfl
@[simp] theorem State.setDmaChan_mem (n : Fin 4) (d : DmaChannel) : (s.setDmaChan n d).mem = s.mem := rfl
@[simp] theorem State.setDmaChan_biosLen (n : Fin 4) (d : DmaChannel) : (s.setDmaChan n d).biosLen = s.biosLen := rfl
@[simp] theorem State.setDmaChan_romLen (n : Fin 4) (d : DmaChannel) : (s.setDmaChan n d).romLen = s.romLen := rfl
@[simp] theorem State.setDmaChan_params (n : Fin 4) (d : DmaChannel) : (s.setDmaChan n d).params = s.params := rfl
@[simp] theorem State.setDmaChan_draws (n : Fin 4) (d : DmaChannel) : (s.setDmaChan n d).draws = s.draws := rfl
@[simp] theorem State.setDmaChan_icache (n : Fin 4) (d : DmaChannel) : (s.setDmaChan n d).icache = s.icache := rfl
@[simp] theorem State.setDmaChan_irq (n : Fin 4) (d : DmaChannel) : (s.setDmaChan n d).irq = s.irq := rfl
@[simp] theorem State.setDmaChan_ppu (n : Fin 4) (d : DmaChannel) : (s.setDmaChan n d).ppu = s.ppu := rfl
@[simp] theorem State.setDmaChan_apu (n : Fin 4) (d : DmaChannel) : (s.setDmaChan n d).apu = s.apu := rfl
@[simp] theorem State.setDmaChan_dma (n : Fin 4) (d : DmaChannel) : (s.setDmaChan n d).dma = { s.dma with chan := s.dma.chan.set n.val d n.isLt } := rfl
@[simp] theorem State.setDmaChan_timers (n : Fin 4) (d : DmaChannel) : (s.setDmaChan n d).timers = s.timers := rfl
@[simp] theorem State.setDmaChan_keycnt (n : Fin 4) (d : DmaChannel) : (s.setDmaChan n d).keycnt = s.keycnt := rfl
@[simp] theorem State.setDmaChan_sio (n : Fin 4) (d : DmaChannel) : (s.setDmaChan n d).sio = s.sio := rfl
@[simp] theorem State.setDmaChan_waitcnt (n : Fin 4) (d : DmaChannel) : (s.setDmaChan n d).waitcnt = s.waitcnt := rfl
@[simp] theorem State.setDmaChan_postflg (n : Fin 4) (d : DmaChannel) : (s.setDmaChan n d).postflg = s.postflg := rfl
@[simp] theorem State.setDmaChan_gpio (n : Fin 4) (d : DmaChannel) : (s.setDmaChan n d).gpio = s.gpio := rfl
@[simp] theorem State.setDmaChan_save (n : Fin 4) (d : DmaChannel) : (s.setDmaChan n d).save = s.save := rfl
@[simp] theorem State.setDmaChan_output (n : Fin 4) (d : DmaChannel) : (s.setDmaChan n d).output = s.output := rfl

@[simp] theorem State.mapPpu_cpu (f : Ppu → Ppu) : (s.mapPpu f).cpu = s.cpu := rfl
@[simp] theorem State.mapPpu_cycles (f : Ppu → Ppu) : (s.mapPpu f).cycles = s.cycles := rfl
@[simp] theorem State.mapPpu_halted (f : Ppu → Ppu) : (s.mapPpu f).halted = s.halted := rfl
@[simp] theorem State.mapPpu_stopped (f : Ppu → Ppu) : (s.mapPpu f).stopped = s.stopped := rfl
@[simp] theorem State.mapPpu_fault (f : Ppu → Ppu) : (s.mapPpu f).fault = s.fault := rfl
@[simp] theorem State.mapPpu_mem (f : Ppu → Ppu) : (s.mapPpu f).mem = s.mem := rfl
@[simp] theorem State.mapPpu_biosLen (f : Ppu → Ppu) : (s.mapPpu f).biosLen = s.biosLen := rfl
@[simp] theorem State.mapPpu_romLen (f : Ppu → Ppu) : (s.mapPpu f).romLen = s.romLen := rfl
@[simp] theorem State.mapPpu_params (f : Ppu → Ppu) : (s.mapPpu f).params = s.params := rfl
@[simp] theorem State.mapPpu_draws (f : Ppu → Ppu) : (s.mapPpu f).draws = s.draws := rfl
@[simp] theorem State.mapPpu_icache (f : Ppu → Ppu) : (s.mapPpu f).icache = s.icache := rfl
@[simp] theorem State.mapPpu_irq (f : Ppu → Ppu) : (s.mapPpu f).irq = s.irq := rfl
@[simp] theorem State.mapPpu_ppu (f : Ppu → Ppu) : (s.mapPpu f).ppu = f s.ppu := rfl
@[simp] theorem State.mapPpu_apu (f : Ppu → Ppu) : (s.mapPpu f).apu = s.apu := rfl
@[simp] theorem State.mapPpu_dma (f : Ppu → Ppu) : (s.mapPpu f).dma = s.dma := rfl
@[simp] theorem State.mapPpu_timers (f : Ppu → Ppu) : (s.mapPpu f).timers = s.timers := rfl
@[simp] theorem State.mapPpu_keycnt (f : Ppu → Ppu) : (s.mapPpu f).keycnt = s.keycnt := rfl
@[simp] theorem State.mapPpu_sio (f : Ppu → Ppu) : (s.mapPpu f).sio = s.sio := rfl
@[simp] theorem State.mapPpu_waitcnt (f : Ppu → Ppu) : (s.mapPpu f).waitcnt = s.waitcnt := rfl
@[simp] theorem State.mapPpu_postflg (f : Ppu → Ppu) : (s.mapPpu f).postflg = s.postflg := rfl
@[simp] theorem State.mapPpu_gpio (f : Ppu → Ppu) : (s.mapPpu f).gpio = s.gpio := rfl
@[simp] theorem State.mapPpu_save (f : Ppu → Ppu) : (s.mapPpu f).save = s.save := rfl
@[simp] theorem State.mapPpu_output (f : Ppu → Ppu) : (s.mapPpu f).output = s.output := rfl

@[simp] theorem State.mapApu_cpu (f : Apu → Apu) : (s.mapApu f).cpu = s.cpu := rfl
@[simp] theorem State.mapApu_cycles (f : Apu → Apu) : (s.mapApu f).cycles = s.cycles := rfl
@[simp] theorem State.mapApu_halted (f : Apu → Apu) : (s.mapApu f).halted = s.halted := rfl
@[simp] theorem State.mapApu_stopped (f : Apu → Apu) : (s.mapApu f).stopped = s.stopped := rfl
@[simp] theorem State.mapApu_fault (f : Apu → Apu) : (s.mapApu f).fault = s.fault := rfl
@[simp] theorem State.mapApu_mem (f : Apu → Apu) : (s.mapApu f).mem = s.mem := rfl
@[simp] theorem State.mapApu_biosLen (f : Apu → Apu) : (s.mapApu f).biosLen = s.biosLen := rfl
@[simp] theorem State.mapApu_romLen (f : Apu → Apu) : (s.mapApu f).romLen = s.romLen := rfl
@[simp] theorem State.mapApu_params (f : Apu → Apu) : (s.mapApu f).params = s.params := rfl
@[simp] theorem State.mapApu_draws (f : Apu → Apu) : (s.mapApu f).draws = s.draws := rfl
@[simp] theorem State.mapApu_icache (f : Apu → Apu) : (s.mapApu f).icache = s.icache := rfl
@[simp] theorem State.mapApu_irq (f : Apu → Apu) : (s.mapApu f).irq = s.irq := rfl
@[simp] theorem State.mapApu_ppu (f : Apu → Apu) : (s.mapApu f).ppu = s.ppu := rfl
@[simp] theorem State.mapApu_apu (f : Apu → Apu) : (s.mapApu f).apu = f s.apu := rfl
@[simp] theorem State.mapApu_dma (f : Apu → Apu) : (s.mapApu f).dma = s.dma := rfl
@[simp] theorem State.mapApu_timers (f : Apu → Apu) : (s.mapApu f).timers = s.timers := rfl
@[simp] theorem State.mapApu_keycnt (f : Apu → Apu) : (s.mapApu f).keycnt = s.keycnt := rfl
@[simp] theorem State.mapApu_sio (f : Apu → Apu) : (s.mapApu f).sio = s.sio := rfl
@[simp] theorem State.mapApu_waitcnt (f : Apu → Apu) : (s.mapApu f).waitcnt = s.waitcnt := rfl
@[simp] theorem State.mapApu_postflg (f : Apu → Apu) : (s.mapApu f).postflg = s.postflg := rfl
@[simp] theorem State.mapApu_gpio (f : Apu → Apu) : (s.mapApu f).gpio = s.gpio := rfl
@[simp] theorem State.mapApu_save (f : Apu → Apu) : (s.mapApu f).save = s.save := rfl
@[simp] theorem State.mapApu_output (f : Apu → Apu) : (s.mapApu f).output = s.output := rfl

@[simp] theorem State.raiseIrq_cpu (k : Nat) : (s.raiseIrq k).cpu = s.cpu := rfl
@[simp] theorem State.raiseIrq_cycles (k : Nat) : (s.raiseIrq k).cycles = s.cycles := rfl
@[simp] theorem State.raiseIrq_halted (k : Nat) : (s.raiseIrq k).halted = s.halted := rfl
@[simp] theorem State.raiseIrq_stopped (k : Nat) : (s.raiseIrq k).stopped = s.stopped := rfl
@[simp] theorem State.raiseIrq_fault (k : Nat) : (s.raiseIrq k).fault = s.fault := rfl
@[simp] theorem State.raiseIrq_mem (k : Nat) : (s.raiseIrq k).mem = s.mem := rfl
@[simp] theorem State.raiseIrq_biosLen (k : Nat) : (s.raiseIrq k).biosLen = s.biosLen := rfl
@[simp] theorem State.raiseIrq_romLen (k : Nat) : (s.raiseIrq k).romLen = s.romLen := rfl
@[simp] theorem State.raiseIrq_params (k : Nat) : (s.raiseIrq k).params = s.params := rfl
@[simp] theorem State.raiseIrq_draws (k : Nat) : (s.raiseIrq k).draws = s.draws := rfl
@[simp] theorem State.raiseIrq_icache (k : Nat) : (s.raiseIrq k).icache = s.icache := rfl
@[simp] theorem State.raiseIrq_irq (k : Nat) : (s.raiseIrq k).irq = { s.irq with ifl := s.irq.ifl ||| BitVec.twoPow 14 k } := rfl
@[simp] theorem State.raiseIrq_ppu (k : Nat) : (s.raiseIrq k).ppu = s.ppu := rfl
@[simp] theorem State.raiseIrq_apu (k : Nat) : (s.raiseIrq k).apu = s.apu := rfl
@[simp] theorem State.raiseIrq_dma (k : Nat) : (s.raiseIrq k).dma = s.dma := rfl
@[simp] theorem State.raiseIrq_timers (k : Nat) : (s.raiseIrq k).timers = s.timers := rfl
@[simp] theorem State.raiseIrq_keycnt (k : Nat) : (s.raiseIrq k).keycnt = s.keycnt := rfl
@[simp] theorem State.raiseIrq_sio (k : Nat) : (s.raiseIrq k).sio = s.sio := rfl
@[simp] theorem State.raiseIrq_waitcnt (k : Nat) : (s.raiseIrq k).waitcnt = s.waitcnt := rfl
@[simp] theorem State.raiseIrq_postflg (k : Nat) : (s.raiseIrq k).postflg = s.postflg := rfl
@[simp] theorem State.raiseIrq_gpio (k : Nat) : (s.raiseIrq k).gpio = s.gpio := rfl
@[simp] theorem State.raiseIrq_save (k : Nat) : (s.raiseIrq k).save = s.save := rfl
@[simp] theorem State.raiseIrq_output (k : Nat) : (s.raiseIrq k).output = s.output := rfl

@[simp] theorem State.dismissIrqs_cpu (m : BitVec 14) : (s.dismissIrqs m).cpu = s.cpu := rfl
@[simp] theorem State.dismissIrqs_cycles (m : BitVec 14) : (s.dismissIrqs m).cycles = s.cycles := rfl
@[simp] theorem State.dismissIrqs_halted (m : BitVec 14) : (s.dismissIrqs m).halted = s.halted := rfl
@[simp] theorem State.dismissIrqs_stopped (m : BitVec 14) : (s.dismissIrqs m).stopped = s.stopped := rfl
@[simp] theorem State.dismissIrqs_fault (m : BitVec 14) : (s.dismissIrqs m).fault = s.fault := rfl
@[simp] theorem State.dismissIrqs_mem (m : BitVec 14) : (s.dismissIrqs m).mem = s.mem := rfl
@[simp] theorem State.dismissIrqs_biosLen (m : BitVec 14) : (s.dismissIrqs m).biosLen = s.biosLen := rfl
@[simp] theorem State.dismissIrqs_romLen (m : BitVec 14) : (s.dismissIrqs m).romLen = s.romLen := rfl
@[simp] theorem State.dismissIrqs_params (m : BitVec 14) : (s.dismissIrqs m).params = s.params := rfl
@[simp] theorem State.dismissIrqs_draws (m : BitVec 14) : (s.dismissIrqs m).draws = s.draws := rfl
@[simp] theorem State.dismissIrqs_icache (m : BitVec 14) : (s.dismissIrqs m).icache = s.icache := rfl
@[simp] theorem State.dismissIrqs_irq (m : BitVec 14) : (s.dismissIrqs m).irq = { s.irq with ifl := s.irq.ifl &&& ~~~m } := rfl
@[simp] theorem State.dismissIrqs_ppu (m : BitVec 14) : (s.dismissIrqs m).ppu = s.ppu := rfl
@[simp] theorem State.dismissIrqs_apu (m : BitVec 14) : (s.dismissIrqs m).apu = s.apu := rfl
@[simp] theorem State.dismissIrqs_dma (m : BitVec 14) : (s.dismissIrqs m).dma = s.dma := rfl
@[simp] theorem State.dismissIrqs_timers (m : BitVec 14) : (s.dismissIrqs m).timers = s.timers := rfl
@[simp] theorem State.dismissIrqs_keycnt (m : BitVec 14) : (s.dismissIrqs m).keycnt = s.keycnt := rfl
@[simp] theorem State.dismissIrqs_sio (m : BitVec 14) : (s.dismissIrqs m).sio = s.sio := rfl
@[simp] theorem State.dismissIrqs_waitcnt (m : BitVec 14) : (s.dismissIrqs m).waitcnt = s.waitcnt := rfl
@[simp] theorem State.dismissIrqs_postflg (m : BitVec 14) : (s.dismissIrqs m).postflg = s.postflg := rfl
@[simp] theorem State.dismissIrqs_gpio (m : BitVec 14) : (s.dismissIrqs m).gpio = s.gpio := rfl
@[simp] theorem State.dismissIrqs_save (m : BitVec 14) : (s.dismissIrqs m).save = s.save := rfl
@[simp] theorem State.dismissIrqs_output (m : BitVec 14) : (s.dismissIrqs m).output = s.output := rfl

@[simp] theorem State.setFlash_cpu (f : Flash) : (s.setFlash f).cpu = s.cpu := rfl
@[simp] theorem State.setFlash_cycles (f : Flash) : (s.setFlash f).cycles = s.cycles := rfl
@[simp] theorem State.setFlash_halted (f : Flash) : (s.setFlash f).halted = s.halted := rfl
@[simp] theorem State.setFlash_stopped (f : Flash) : (s.setFlash f).stopped = s.stopped := rfl
@[simp] theorem State.setFlash_fault (f : Flash) : (s.setFlash f).fault = s.fault := rfl
@[simp] theorem State.setFlash_mem (f : Flash) : (s.setFlash f).mem = s.mem := rfl
@[simp] theorem State.setFlash_biosLen (f : Flash) : (s.setFlash f).biosLen = s.biosLen := rfl
@[simp] theorem State.setFlash_romLen (f : Flash) : (s.setFlash f).romLen = s.romLen := rfl
@[simp] theorem State.setFlash_params (f : Flash) : (s.setFlash f).params = s.params := rfl
@[simp] theorem State.setFlash_draws (f : Flash) : (s.setFlash f).draws = s.draws := rfl
@[simp] theorem State.setFlash_icache (f : Flash) : (s.setFlash f).icache = s.icache := rfl
@[simp] theorem State.setFlash_irq (f : Flash) : (s.setFlash f).irq = s.irq := rfl
@[simp] theorem State.setFlash_ppu (f : Flash) : (s.setFlash f).ppu = s.ppu := rfl
@[simp] theorem State.setFlash_apu (f : Flash) : (s.setFlash f).apu = s.apu := rfl
@[simp] theorem State.setFlash_dma (f : Flash) : (s.setFlash f).dma = s.dma := rfl
@[simp] theorem State.setFlash_timers (f : Flash) : (s.setFlash f).timers = s.timers := rfl
@[simp] theorem State.setFlash_keycnt (f : Flash) : (s.setFlash f).keycnt = s.keycnt := rfl
@[simp] theorem State.setFlash_sio (f : Flash) : (s.setFlash f).sio = s.sio := rfl
@[simp] theorem State.setFlash_waitcnt (f : Flash) : (s.setFlash f).waitcnt = s.waitcnt := rfl
@[simp] theorem State.setFlash_postflg (f : Flash) : (s.setFlash f).postflg = s.postflg := rfl
@[simp] theorem State.setFlash_gpio (f : Flash) : (s.setFlash f).gpio = s.gpio := rfl
@[simp] theorem State.setFlash_save (f : Flash) : (s.setFlash f).save = { s.save with flash := f } := rfl
@[simp] theorem State.setFlash_output (f : Flash) : (s.setFlash f).output = s.output := rfl

@[simp] theorem State.setEeprom_cpu (e : Eeprom) : (s.setEeprom e).cpu = s.cpu := rfl
@[simp] theorem State.setEeprom_cycles (e : Eeprom) : (s.setEeprom e).cycles = s.cycles := rfl
@[simp] theorem State.setEeprom_halted (e : Eeprom) : (s.setEeprom e).halted = s.halted := rfl
@[simp] theorem State.setEeprom_stopped (e : Eeprom) : (s.setEeprom e).stopped = s.stopped := rfl
@[simp] theorem State.setEeprom_fault (e : Eeprom) : (s.setEeprom e).fault = s.fault := rfl
@[simp] theorem State.setEeprom_mem (e : Eeprom) : (s.setEeprom e).mem = s.mem := rfl
@[simp] theorem State.setEeprom_biosLen (e : Eeprom) : (s.setEeprom e).biosLen = s.biosLen := rfl
@[simp] theorem State.setEeprom_romLen (e : Eeprom) : (s.setEeprom e).romLen = s.romLen := rfl
@[simp] theorem State.setEeprom_params (e : Eeprom) : (s.setEeprom e).params = s.params := rfl
@[simp] theorem State.setEeprom_draws (e : Eeprom) : (s.setEeprom e).draws = s.draws := rfl
@[simp] theorem State.setEeprom_icache (e : Eeprom) : (s.setEeprom e).icache = s.icache := rfl
@[simp] theorem State.setEeprom_irq (e : Eeprom) : (s.setEeprom e).irq = s.irq := rfl
@[simp] theorem State.setEeprom_ppu (e : Eeprom) : (s.setEeprom e).ppu = s.ppu := rfl
@[simp] theorem State.setEeprom_apu (e : Eeprom) : (s.setEeprom e).apu = s.apu := rfl
@[simp] theorem State.setEeprom_dma (e : Eeprom) : (s.setEeprom e).dma = s.dma := rfl
@[simp] theorem State.setEeprom_timers (e : Eeprom) : (s.setEeprom e).timers = s.timers := rfl
@[simp] theorem State.setEeprom_keycnt (e : Eeprom) : (s.setEeprom e).keycnt = s.keycnt := rfl
@[simp] theorem State.setEeprom_sio (e : Eeprom) : (s.setEeprom e).sio = s.sio := rfl
@[simp] theorem State.setEeprom_waitcnt (e : Eeprom) : (s.setEeprom e).waitcnt = s.waitcnt := rfl
@[simp] theorem State.setEeprom_postflg (e : Eeprom) : (s.setEeprom e).postflg = s.postflg := rfl
@[simp] theorem State.setEeprom_gpio (e : Eeprom) : (s.setEeprom e).gpio = s.gpio := rfl
@[simp] theorem State.setEeprom_save (e : Eeprom) : (s.setEeprom e).save = { s.save with eeprom := e } := rfl
@[simp] theorem State.setEeprom_output (e : Eeprom) : (s.setEeprom e).output = s.output := rfl

@[simp] theorem State.stopDma_cpu : (s.stopDma).cpu = s.cpu := rfl
@[simp] theorem State.stopDma_cycles : (s.stopDma).cycles = s.cycles := rfl
@[simp] theorem State.stopDma_halted : (s.stopDma).halted = s.halted := rfl
@[simp] theorem State.stopDma_stopped : (s.stopDma).stopped = s.stopped := rfl
@[simp] theorem State.stopDma_fault : (s.stopDma).fault = s.fault := rfl
@[simp] theorem State.stopDma_mem : (s.stopDma).mem = s.mem := rfl
@[simp] theorem State.stopDma_biosLen : (s.stopDma).biosLen = s.biosLen := rfl
@[simp] theorem State.stopDma_romLen : (s.stopDma).romLen = s.romLen := rfl
@[simp] theorem State.stopDma_params : (s.stopDma).params = s.params := rfl
@[simp] theorem State.stopDma_draws : (s.stopDma).draws = s.draws := rfl
@[simp] theorem State.stopDma_icache : (s.stopDma).icache = s.icache := rfl
@[simp] theorem State.stopDma_irq : (s.stopDma).irq = s.irq := rfl
@[simp] theorem State.stopDma_ppu : (s.stopDma).ppu = s.ppu := rfl
@[simp] theorem State.stopDma_apu : (s.stopDma).apu = s.apu := rfl
@[simp] theorem State.stopDma_dma : (s.stopDma).dma = { s.dma with running := none } := rfl
@[simp] theorem State.stopDma_timers : (s.stopDma).timers = s.timers := rfl
@[simp] theorem State.stopDma_keycnt : (s.stopDma).keycnt = s.keycnt := rfl
@[simp] theorem State.stopDma_sio : (s.stopDma).sio = s.sio := rfl
@[simp] theorem State.stopDma_waitcnt : (s.stopDma).waitcnt = s.waitcnt := rfl
@[simp] theorem State.stopDma_postflg : (s.stopDma).postflg = s.postflg := rfl
@[simp] theorem State.stopDma_gpio : (s.stopDma).gpio = s.gpio := rfl
@[simp] theorem State.stopDma_save : (s.stopDma).save = s.save := rfl
@[simp] theorem State.stopDma_output : (s.stopDma).output = s.output := rfl

@[simp] theorem State.startDma_cpu (n : Fin 4) (r : List (Fin 4)) : (s.startDma n r).cpu = s.cpu := rfl
@[simp] theorem State.startDma_cycles (n : Fin 4) (r : List (Fin 4)) : (s.startDma n r).cycles = s.cycles := rfl
@[simp] theorem State.startDma_halted (n : Fin 4) (r : List (Fin 4)) : (s.startDma n r).halted = s.halted := rfl
@[simp] theorem State.startDma_stopped (n : Fin 4) (r : List (Fin 4)) : (s.startDma n r).stopped = s.stopped := rfl
@[simp] theorem State.startDma_fault (n : Fin 4) (r : List (Fin 4)) : (s.startDma n r).fault = s.fault := rfl
@[simp] theorem State.startDma_mem (n : Fin 4) (r : List (Fin 4)) : (s.startDma n r).mem = s.mem := rfl
@[simp] theorem State.startDma_biosLen (n : Fin 4) (r : List (Fin 4)) : (s.startDma n r).biosLen = s.biosLen := rfl
@[simp] theorem State.startDma_romLen (n : Fin 4) (r : List (Fin 4)) : (s.startDma n r).romLen = s.romLen := rfl
@[simp] theorem State.startDma_params (n : Fin 4) (r : List (Fin 4)) : (s.startDma n r).params = s.params := rfl
@[simp] theorem State.startDma_draws (n : Fin 4) (r : List (Fin 4)) : (s.startDma n r).draws = s.draws := rfl
@[simp] theorem State.startDma_icache (n : Fin 4) (r : List (Fin 4)) : (s.startDma n r).icache = s.icache := rfl
@[simp] theorem State.startDma_irq (n : Fin 4) (r : List (Fin 4)) : (s.startDma n r).irq = s.irq := rfl
@[simp] theorem State.startDma_ppu (n : Fin 4) (r : List (Fin 4)) : (s.startDma n r).ppu = s.ppu := rfl
@[simp] theorem State.startDma_apu (n : Fin 4) (r : List (Fin 4)) : (s.startDma n r).apu = s.apu := rfl
@[simp] theorem State.startDma_dma (n : Fin 4) (r : List (Fin 4)) : (s.startDma n r).dma = { s.dma with held := r, running := some n } := rfl
@[simp] theorem State.startDma_timers (n : Fin 4) (r : List (Fin 4)) : (s.startDma n r).timers = s.timers := rfl
@[simp] theorem State.startDma_keycnt (n : Fin 4) (r : List (Fin 4)) : (s.startDma n r).keycnt = s.keycnt := rfl
@[simp] theorem State.startDma_sio (n : Fin 4) (r : List (Fin 4)) : (s.startDma n r).sio = s.sio := rfl
@[simp] theorem State.startDma_waitcnt (n : Fin 4) (r : List (Fin 4)) : (s.startDma n r).waitcnt = s.waitcnt := rfl
@[simp] theorem State.startDma_postflg (n : Fin 4) (r : List (Fin 4)) : (s.startDma n r).postflg = s.postflg := rfl
@[simp] theorem State.startDma_gpio (n : Fin 4) (r : List (Fin 4)) : (s.startDma n r).gpio = s.gpio := rfl
@[simp] theorem State.startDma_save (n : Fin 4) (r : List (Fin 4)) : (s.startDma n r).save = s.save := rfl
@[simp] theorem State.startDma_output (n : Fin 4) (r : List (Fin 4)) : (s.startDma n r).output = s.output := rfl

@[simp] theorem State.handFrame_cpu : s.handFrame.cpu = s.cpu := rfl
@[simp] theorem State.handFrame_cycles : s.handFrame.cycles = s.cycles := rfl
@[simp] theorem State.handFrame_halted : s.handFrame.halted = s.halted := rfl
@[simp] theorem State.handFrame_stopped : s.handFrame.stopped = s.stopped := rfl
@[simp] theorem State.handFrame_fault : s.handFrame.fault = s.fault := rfl
@[simp] theorem State.handFrame_mem : s.handFrame.mem = s.mem := rfl
@[simp] theorem State.handFrame_biosLen : s.handFrame.biosLen = s.biosLen := rfl
@[simp] theorem State.handFrame_romLen : s.handFrame.romLen = s.romLen := rfl
@[simp] theorem State.handFrame_params : s.handFrame.params = s.params := rfl
@[simp] theorem State.handFrame_draws : s.handFrame.draws = s.draws := rfl
@[simp] theorem State.handFrame_icache : s.handFrame.icache = s.icache := rfl
@[simp] theorem State.handFrame_irq : s.handFrame.irq = s.irq := rfl
@[simp] theorem State.handFrame_ppu : s.handFrame.ppu = s.ppu := rfl
@[simp] theorem State.handFrame_apu : s.handFrame.apu = s.apu := rfl
@[simp] theorem State.handFrame_dma : s.handFrame.dma = s.dma := rfl
@[simp] theorem State.handFrame_timers : s.handFrame.timers = s.timers := rfl
@[simp] theorem State.handFrame_keycnt : s.handFrame.keycnt = s.keycnt := rfl
@[simp] theorem State.handFrame_sio : s.handFrame.sio = s.sio := rfl
@[simp] theorem State.handFrame_waitcnt : s.handFrame.waitcnt = s.waitcnt := rfl
@[simp] theorem State.handFrame_postflg : s.handFrame.postflg = s.postflg := rfl
@[simp] theorem State.handFrame_gpio : s.handFrame.gpio = s.gpio := rfl
@[simp] theorem State.handFrame_save : s.handFrame.save = s.save := rfl
@[simp] theorem State.handFrame_output : s.handFrame.output = { s.output with frames := s.ppu.frame :: s.output.frames } := rfl

@[simp] theorem State.putSample_cpu (p : Int × Int) : (s.putSample p).cpu = s.cpu := rfl
@[simp] theorem State.putSample_cycles (p : Int × Int) : (s.putSample p).cycles = s.cycles := rfl
@[simp] theorem State.putSample_halted (p : Int × Int) : (s.putSample p).halted = s.halted := rfl
@[simp] theorem State.putSample_stopped (p : Int × Int) : (s.putSample p).stopped = s.stopped := rfl
@[simp] theorem State.putSample_fault (p : Int × Int) : (s.putSample p).fault = s.fault := rfl
@[simp] theorem State.putSample_mem (p : Int × Int) : (s.putSample p).mem = s.mem := rfl
@[simp] theorem State.putSample_biosLen (p : Int × Int) : (s.putSample p).biosLen = s.biosLen := rfl
@[simp] theorem State.putSample_romLen (p : Int × Int) : (s.putSample p).romLen = s.romLen := rfl
@[simp] theorem State.putSample_params (p : Int × Int) : (s.putSample p).params = s.params := rfl
@[simp] theorem State.putSample_draws (p : Int × Int) : (s.putSample p).draws = s.draws := rfl
@[simp] theorem State.putSample_icache (p : Int × Int) : (s.putSample p).icache = s.icache := rfl
@[simp] theorem State.putSample_irq (p : Int × Int) : (s.putSample p).irq = s.irq := rfl
@[simp] theorem State.putSample_ppu (p : Int × Int) : (s.putSample p).ppu = s.ppu := rfl
@[simp] theorem State.putSample_apu (p : Int × Int) : (s.putSample p).apu = s.apu := rfl
@[simp] theorem State.putSample_dma (p : Int × Int) : (s.putSample p).dma = s.dma := rfl
@[simp] theorem State.putSample_timers (p : Int × Int) : (s.putSample p).timers = s.timers := rfl
@[simp] theorem State.putSample_keycnt (p : Int × Int) : (s.putSample p).keycnt = s.keycnt := rfl
@[simp] theorem State.putSample_sio (p : Int × Int) : (s.putSample p).sio = s.sio := rfl
@[simp] theorem State.putSample_waitcnt (p : Int × Int) : (s.putSample p).waitcnt = s.waitcnt := rfl
@[simp] theorem State.putSample_postflg (p : Int × Int) : (s.putSample p).postflg = s.postflg := rfl
@[simp] theorem State.putSample_gpio (p : Int × Int) : (s.putSample p).gpio = s.gpio := rfl
@[simp] theorem State.putSample_save (p : Int × Int) : (s.putSample p).save = s.save := rfl
@[simp] theorem State.putSample_output (p : Int × Int) : (s.putSample p).output = { s.output with audio := p :: s.output.audio } := rfl

@[simp] theorem State.draw_cpu : s.draw.2.cpu = s.cpu := rfl
@[simp] theorem State.draw_cycles : s.draw.2.cycles = s.cycles := rfl
@[simp] theorem State.draw_halted : s.draw.2.halted = s.halted := rfl
@[simp] theorem State.draw_stopped : s.draw.2.stopped = s.stopped := rfl
@[simp] theorem State.draw_fault : s.draw.2.fault = s.fault := rfl
@[simp] theorem State.draw_mem : s.draw.2.mem = s.mem := rfl
@[simp] theorem State.draw_biosLen : s.draw.2.biosLen = s.biosLen := rfl
@[simp] theorem State.draw_romLen : s.draw.2.romLen = s.romLen := rfl
@[simp] theorem State.draw_params : s.draw.2.params = s.params := rfl
@[simp] theorem State.draw_draws : s.draw.2.draws = s.draws + 1 := rfl
@[simp] theorem State.draw_icache : s.draw.2.icache = s.icache := rfl
@[simp] theorem State.draw_irq : s.draw.2.irq = s.irq := rfl
@[simp] theorem State.draw_ppu : s.draw.2.ppu = s.ppu := rfl
@[simp] theorem State.draw_apu : s.draw.2.apu = s.apu := rfl
@[simp] theorem State.draw_dma : s.draw.2.dma = s.dma := rfl
@[simp] theorem State.draw_timers : s.draw.2.timers = s.timers := rfl
@[simp] theorem State.draw_keycnt : s.draw.2.keycnt = s.keycnt := rfl
@[simp] theorem State.draw_sio : s.draw.2.sio = s.sio := rfl
@[simp] theorem State.draw_waitcnt : s.draw.2.waitcnt = s.waitcnt := rfl
@[simp] theorem State.draw_postflg : s.draw.2.postflg = s.postflg := rfl
@[simp] theorem State.draw_gpio : s.draw.2.gpio = s.gpio := rfl
@[simp] theorem State.draw_save : s.draw.2.save = s.save := rfl
@[simp] theorem State.draw_output : s.draw.2.output = s.output := rfl

@[simp] theorem State.setRegOf_cycles (m : BitVec 5) (i : RegNo) (v : Word) : (s.setRegOf m i v).cycles = s.cycles := by
  unfold State.setRegOf; split <;> rfl
@[simp] theorem State.setRegOf_halted (m : BitVec 5) (i : RegNo) (v : Word) : (s.setRegOf m i v).halted = s.halted := by
  unfold State.setRegOf; split <;> rfl
@[simp] theorem State.setRegOf_stopped (m : BitVec 5) (i : RegNo) (v : Word) : (s.setRegOf m i v).stopped = s.stopped := by
  unfold State.setRegOf; split <;> rfl
@[simp] theorem State.setRegOf_fault (m : BitVec 5) (i : RegNo) (v : Word) : (s.setRegOf m i v).fault = s.fault := by
  unfold State.setRegOf; split <;> rfl
@[simp] theorem State.setRegOf_mem (m : BitVec 5) (i : RegNo) (v : Word) : (s.setRegOf m i v).mem = s.mem := by
  unfold State.setRegOf; split <;> rfl
@[simp] theorem State.setRegOf_biosLen (m : BitVec 5) (i : RegNo) (v : Word) : (s.setRegOf m i v).biosLen = s.biosLen := by
  unfold State.setRegOf; split <;> rfl
@[simp] theorem State.setRegOf_romLen (m : BitVec 5) (i : RegNo) (v : Word) : (s.setRegOf m i v).romLen = s.romLen := by
  unfold State.setRegOf; split <;> rfl
@[simp] theorem State.setRegOf_params (m : BitVec 5) (i : RegNo) (v : Word) : (s.setRegOf m i v).params = s.params := by
  unfold State.setRegOf; split <;> rfl
@[simp] theorem State.setRegOf_draws (m : BitVec 5) (i : RegNo) (v : Word) : (s.setRegOf m i v).draws = s.draws := by
  unfold State.setRegOf; split <;> rfl
@[simp] theorem State.setRegOf_icache (m : BitVec 5) (i : RegNo) (v : Word) : (s.setRegOf m i v).icache = s.icache := by
  unfold State.setRegOf; split <;> rfl
@[simp] theorem State.setRegOf_irq (m : BitVec 5) (i : RegNo) (v : Word) : (s.setRegOf m i v).irq = s.irq := by
  unfold State.setRegOf; split <;> rfl
@[simp] theorem State.setRegOf_ppu (m : BitVec 5) (i : RegNo) (v : Word) : (s.setRegOf m i v).ppu = s.ppu := by
  unfold State.setRegOf; split <;> rfl
@[simp] theorem State.setRegOf_apu (m : BitVec 5) (i : RegNo) (v : Word) : (s.setRegOf m i v).apu = s.apu := by
  unfold State.setRegOf; split <;> rfl
@[simp] theorem State.setRegOf_dma (m : BitVec 5) (i : RegNo) (v : Word) : (s.setRegOf m i v).dma = s.dma := by
  unfold State.setRegOf; split <;> rfl
@[simp] theorem State.setRegOf_timers (m : BitVec 5) (i : RegNo) (v : Word) : (s.setRegOf m i v).timers = s.timers := by
  unfold State.setRegOf; split <;> rfl
@[simp] theorem State.setRegOf_keycnt (m : BitVec 5) (i : RegNo) (v : Word) : (s.setRegOf m i v).keycnt = s.keycnt := by
  unfold State.setRegOf; split <;> rfl
@[simp] theorem State.setRegOf_sio (m : BitVec 5) (i : RegNo) (v : Word) : (s.setRegOf m i v).sio = s.sio := by
  unfold State.setRegOf; split <;> rfl
@[simp] theorem State.setRegOf_waitcnt (m : BitVec 5) (i : RegNo) (v : Word) : (s.setRegOf m i v).waitcnt = s.waitcnt := by
  unfold State.setRegOf; split <;> rfl
@[simp] theorem State.setRegOf_postflg (m : BitVec 5) (i : RegNo) (v : Word) : (s.setRegOf m i v).postflg = s.postflg := by
  unfold State.setRegOf; split <;> rfl
@[simp] theorem State.setRegOf_gpio (m : BitVec 5) (i : RegNo) (v : Word) : (s.setRegOf m i v).gpio = s.gpio := by
  unfold State.setRegOf; split <;> rfl
@[simp] theorem State.setRegOf_save (m : BitVec 5) (i : RegNo) (v : Word) : (s.setRegOf m i v).save = s.save := by
  unfold State.setRegOf; split <;> rfl
@[simp] theorem State.setRegOf_output (m : BitVec 5) (i : RegNo) (v : Word) : (s.setRegOf m i v).output = s.output := by
  unfold State.setRegOf; split <;> rfl

@[simp] theorem State.setRegOf_cpu_pc (m : BitVec 5) (i : RegNo) (v : Word) : (s.setRegOf m i v).cpu.pc = s.cpu.pc := by
  unfold State.setRegOf; split <;> rfl
@[simp] theorem State.setRegOf_cpu_cpsr (m : BitVec 5) (i : RegNo) (v : Word) : (s.setRegOf m i v).cpu.cpsr = s.cpu.cpsr := by
  unfold State.setRegOf; split <;> rfl
@[simp] theorem State.setRegOf_cpu_spsrWritten (m : BitVec 5) (i : RegNo) (v : Word) :
    (s.setRegOf m i v).cpu.spsrWritten = s.cpu.spsrWritten := by
  unfold State.setRegOf; split <;> rfl
@[simp] theorem State.setRegOf_cpu_spsr (m : BitVec 5) (i : RegNo) (v : Word) : (s.setRegOf m i v).cpu.spsr = s.cpu.spsr := by
  unfold State.setRegOf; split <;> rfl

@[simp] theorem State.setSpsrOf_cycles (m : BitVec 5) (p : Psr) : (s.setSpsrOf m p).cycles = s.cycles := by
  unfold State.setSpsrOf; split <;> rfl
@[simp] theorem State.setSpsrOf_halted (m : BitVec 5) (p : Psr) : (s.setSpsrOf m p).halted = s.halted := by
  unfold State.setSpsrOf; split <;> rfl
@[simp] theorem State.setSpsrOf_stopped (m : BitVec 5) (p : Psr) : (s.setSpsrOf m p).stopped = s.stopped := by
  unfold State.setSpsrOf; split <;> rfl
@[simp] theorem State.setSpsrOf_fault (m : BitVec 5) (p : Psr) : (s.setSpsrOf m p).fault = s.fault := by
  unfold State.setSpsrOf; split <;> rfl
@[simp] theorem State.setSpsrOf_mem (m : BitVec 5) (p : Psr) : (s.setSpsrOf m p).mem = s.mem := by
  unfold State.setSpsrOf; split <;> rfl
@[simp] theorem State.setSpsrOf_biosLen (m : BitVec 5) (p : Psr) : (s.setSpsrOf m p).biosLen = s.biosLen := by
  unfold State.setSpsrOf; split <;> rfl
@[simp] theorem State.setSpsrOf_romLen (m : BitVec 5) (p : Psr) : (s.setSpsrOf m p).romLen = s.romLen := by
  unfold State.setSpsrOf; split <;> rfl
@[simp] theorem State.setSpsrOf_params (m : BitVec 5) (p : Psr) : (s.setSpsrOf m p).params = s.params := by
  unfold State.setSpsrOf; split <;> rfl
@[simp] theorem State.setSpsrOf_draws (m : BitVec 5) (p : Psr) : (s.setSpsrOf m p).draws = s.draws := by
  unfold State.setSpsrOf; split <;> rfl
@[simp] theorem State.setSpsrOf_icache (m : BitVec 5) (p : Psr) : (s.setSpsrOf m p).icache = s.icache := by
  unfold State.setSpsrOf; split <;> rfl
@[simp] theorem State.setSpsrOf_irq (m : BitVec 5) (p : Psr) : (s.setSpsrOf m p).irq = s.irq := by
  unfold State.setSpsrOf; split <;> rfl
@[simp] theorem State.setSpsrOf_ppu (m : BitVec 5) (p : Psr) : (s.setSpsrOf m p).ppu = s.ppu := by
  unfold State.setSpsrOf; split <;> rfl
@[simp] theorem State.setSpsrOf_apu (m : BitVec 5) (p : Psr) : (s.setSpsrOf m p).apu = s.apu := by
  unfold State.setSpsrOf; split <;> rfl
@[simp] theorem State.setSpsrOf_dma (m : BitVec 5) (p : Psr) : (s.setSpsrOf m p).dma = s.dma := by
  unfold State.setSpsrOf; split <;> rfl
@[simp] theorem State.setSpsrOf_timers (m : BitVec 5) (p : Psr) : (s.setSpsrOf m p).timers = s.timers := by
  unfold State.setSpsrOf; split <;> rfl
@[simp] theorem State.setSpsrOf_keycnt (m : BitVec 5) (p : Psr) : (s.setSpsrOf m p).keycnt = s.keycnt := by
  unfold State.setSpsrOf; split <;> rfl
@[simp] theorem State.setSpsrOf_sio (m : BitVec 5) (p : Psr) : (s.setSpsrOf m p).sio = s.sio := by
  unfold State.setSpsrOf; split <;> rfl
@[simp] theorem State.setSpsrOf_waitcnt (m : BitVec 5) (p : Psr) : (s.setSpsrOf m p).waitcnt = s.waitcnt := by
  unfold State.setSpsrOf; split <;> rfl
@[simp] theorem State.setSpsrOf_postflg (m : BitVec 5) (p : Psr) : (s.setSpsrOf m p).postflg = s.postflg := by
  unfold State.setSpsrOf; split <;> rfl
@[simp] theorem State.setSpsrOf_gpio (m : BitVec 5) (p : Psr) : (s.setSpsrOf m p).gpio = s.gpio := by
  unfold State.setSpsrOf; split <;> rfl
@[simp] theorem State.setSpsrOf_save (m : BitVec 5) (p : Psr) : (s.setSpsrOf m p).save = s.save := by
  unfold State.setSpsrOf; split <;> rfl
@[simp] theorem State.setSpsrOf_output (m : BitVec 5) (p : Psr) : (s.setSpsrOf m p).output = s.output := by
  unfold State.setSpsrOf; split <;> rfl

@[simp] theorem State.setSpsrOf_cpu_pc (m : BitVec 5) (p : Psr) : (s.setSpsrOf m p).cpu.pc = s.cpu.pc := by
  unfold State.setSpsrOf; split <;> rfl
@[simp] theorem State.setSpsrOf_cpu_cpsr (m : BitVec 5) (p : Psr) : (s.setSpsrOf m p).cpu.cpsr = s.cpu.cpsr := by
  unfold State.setSpsrOf; split <;> rfl
@[simp] theorem State.setSpsrOf_cpu_gpr (m : BitVec 5) (p : Psr) : (s.setSpsrOf m p).cpu.gpr = s.cpu.gpr := by
  unfold State.setSpsrOf; split <;> rfl
@[simp] theorem State.setSpsrOf_cpu_written (m : BitVec 5) (p : Psr) :
    (s.setSpsrOf m p).cpu.written = s.cpu.written := by
  unfold State.setSpsrOf; split <;> rfl

end Sys2Proof.Machine
end

