-- ==== Sys2Proof/Laws/Read.lean ====
section
/-! SUPPORT. What a read of the machine changes: the draws counter and the EEPROM's read position, nothing else. -/

namespace Sys2Proof.Machine

/-- Everything a read may change. -/
structure ReadStep (s t : State) : Prop where
  eq : t = { s with draws := t.draws, save := { s.save with eeprom := t.save.eeprom } }

theorem ReadStep.refl (s : State) : ReadStep s s := ⟨rfl⟩

theorem ReadStep.trans {s t u : State} (h : ReadStep s t) (k : ReadStep t u) : ReadStep s u := by
  refine ⟨?_⟩
  rw [k.eq, h.eq]

theorem ReadStep.draw (s : State) : ReadStep s s.draw.2 := ⟨rfl⟩

theorem ReadStep.setEeprom (s : State) (e : Eeprom) : ReadStep s (s.setEeprom e) := ⟨rfl⟩

theorem State.drawHalf_readStep (s : State) : ReadStep s s.drawHalf.2 := ⟨rfl⟩

theorem State.drawWidth_readStep (s : State) (w : Width) : ReadStep s (s.drawWidth w).2 := ⟨rfl⟩

theorem State.readReg_readStep (s : State) (r : IoReg) : ReadStep s (s.readReg r).2 := by
  cases r <;> exact ⟨rfl⟩

theorem State.readIoHalf_readStep (s : State) (o : Nat) : ReadStep s (s.readIoHalf o).2 := by
  unfold State.readIoHalf; split
  · exact s.drawHalf_readStep
  · exact s.readReg_readStep _

theorem State.readIo_readStep (s : State) (o : Nat) (w : Width) : ReadStep s (s.readIo o w).2 := by
  cases w
  · exact s.readIoHalf_readStep _
  · exact s.readIoHalf_readStep _
  · exact (s.readIoHalf_readStep _).trans (State.readIoHalf_readStep _ _)

theorem State.readGpioHalf_readStep (s : State) (o : Nat) : ReadStep s (s.readGpioHalf o).2 := by
  unfold State.readGpioHalf; split
  · exact ⟨rfl⟩
  · split <;> exact ⟨rfl⟩

theorem State.readGpio_readStep (s : State) (a : Word) (w : Width) : ReadStep s (s.readGpio a w).2 := by
  cases w
  · exact s.readGpioHalf_readStep _
  · exact s.readGpioHalf_readStep _
  · simp only [State.readGpio]; split
    · exact (s.readGpioHalf_readStep _).trans (State.readGpioHalf_readStep _ _)
    · exact s.readGpioHalf_readStep _

theorem State.readRom_readStep (s : State) (a : Word) (w : Width) : ReadStep s (s.readRom a w).2 := by
  unfold State.readRom; split
  · exact ⟨rfl⟩
  · split
    · exact s.readGpio_readStep a w
    · exact .refl s

theorem State.readBios_readStep (s : State) (who : Master) (a : Word) (w : Width) :
    ReadStep s (s.readBios who a w).2 := by
  unfold State.readBios; dsimp only; split
  · exact .refl s
  · split
    · exact s.drawWidth_readStep w
    · split <;> exact .refl s

/-- What R.read changes. -/
theorem State.readRaw_readStep (s : State) (who : Master) (a : Word) (w : Width) :
    ReadStep s (s.readRaw who a w).2 := by
  unfold State.readRaw
  split
  · exact s.readBios_readStep who a w
  · exact s.readIo_readStep _ w
  iterate 3 exact s.readRom_readStep a w
  · exact .refl s
  · exact s.drawWidth_readStep w
  iterate 5 exact .refl s

/-- What MemRead changes: a read, at the counter value after its cost. -/
theorem State.memRead_readStep (s : State) (a : Word) (w : Width) (seq : Bool) :
    ReadStep (s.billAccess a w seq) (s.memRead a w seq).2 := State.readRaw_readStep _ _ _ _

/-- The fetch changes no more than a read. -/
theorem State.fetch_readStep (s : State) : ReadStep s s.fetch.2 := State.readRaw_readStep _ _ _ _

/-! ### Fields after a read -/

section
variable {s t : State} (h : ReadStep s t)
include h

theorem ReadStep.cpu : t.cpu = s.cpu := by rw [h.eq]
theorem ReadStep.cycles : t.cycles = s.cycles := by rw [h.eq]
theorem ReadStep.mem : t.mem = s.mem := by rw [h.eq]
theorem ReadStep.params : t.params = s.params := by rw [h.eq]
theorem ReadStep.ppu : t.ppu = s.ppu := by rw [h.eq]
theorem ReadStep.apu : t.apu = s.apu := by rw [h.eq]
theorem ReadStep.dma : t.dma = s.dma := by rw [h.eq]
theorem ReadStep.timers : t.timers = s.timers := by rw [h.eq]
theorem ReadStep.irq : t.irq = s.irq := by rw [h.eq]
theorem ReadStep.waitcnt : t.waitcnt = s.waitcnt := by rw [h.eq]
theorem ReadStep.icache : t.icache = s.icache := by rw [h.eq]
theorem ReadStep.gpio : t.gpio = s.gpio := by rw [h.eq]
theorem ReadStep.romLen : t.romLen = s.romLen := by rw [h.eq]
theorem ReadStep.biosLen : t.biosLen = s.biosLen := by rw [h.eq]
theorem ReadStep.backend : t.save.backend = s.save.backend := by rw [h.eq]
theorem ReadStep.fault : t.fault = s.fault := by rw [h.eq]
theorem ReadStep.stopped : t.stopped = s.stopped := by rw [h.eq]
theorem ReadStep.halted : t.halted = s.halted := by rw [h.eq]
theorem ReadStep.region (a : Word) : t.region a = s.region a := by simp only [State.region, h.backend]

end

/-! ### Values of reads of plain memory -/

/-- The regions whose reads give the bytes of memory whoever reads them (R172). -/
def Region.ram : Region → Bool
  | .ewram | .iwram | .palette | .vram | .oam => true
  | _ => false

/-- A read of one of those regions: the little-endian value, and nothing changes. -/
theorem State.readRaw_ram (s : State) (who : Master) (a : Word) (w : Width) (h : (s.region a).ram = true) :
    s.readRaw who a w = (s.mem.read (storageKey (s.region a) a) w, s) := by
  unfold State.readRaw
  generalize hr : s.region a = r at h ⊢
  cases r <;> simp_all [Region.ram]

@[simp] theorem State.billAccess_region (s : State) (a : Word) (w : Width) (seq : Bool) (b : Word) :
    (s.billAccess a w seq).region b = s.region b := rfl

/-- MemRead of plain memory (R170): the aligned little-endian value, rotated (R163). -/
theorem State.memRead_ram (s : State) (a : Word) (w : Width) (seq : Bool) (h : (s.region (w.align a)).ram = true) :
    s.memRead a w seq = (rotateRead a w (s.mem.read (storageKey (s.region (w.align a)) (w.align a)) w),
      s.billAccess a w seq) := by
  simp only [State.memRead]
  rw [State.readRaw_ram _ _ _ _ (by exact h)]
  rfl

end Sys2Proof.Machine
end

