-- ==== Sys2Proof/Laws/Device.lean ====
section
/-! SUPPORT. What any data access, DMA transfer or event may do to the machine, said once: the CPU, the run's
parameters, the images and the backend stay, the cycle counter never falls, no read-only byte changes, and the
invariant of the devices stays. -/

namespace Sys2Proof.Machine

/-- Everything a step outside the CPU may do. -/
structure DeviceStep (s t : State) : Prop where
  cpu : t.cpu = s.cpu
  params : t.params = s.params
  biosLen : t.biosLen = s.biosLen
  romLen : t.romLen = s.romLen
  fault : t.fault = s.fault
  backend : t.save.backend = s.save.backend
  cycles : s.cycles ≤ t.cycles
  rom : ∀ k, readOnlyKey k → t.mem.byte k = s.mem.byte k
  ok : DevicesOk s → DevicesOk t

theorem DeviceStep.refl (s : State) : DeviceStep s s := ⟨rfl, rfl, rfl, rfl, rfl, rfl, Nat.le_refl _, fun _ _ => rfl, id⟩

theorem DeviceStep.trans {s t u : State} (h : DeviceStep s t) (k : DeviceStep t u) : DeviceStep s u where
  cpu := k.cpu.trans h.cpu
  params := k.params.trans h.params
  biosLen := k.biosLen.trans h.biosLen
  romLen := k.romLen.trans h.romLen
  fault := k.fault.trans h.fault
  backend := k.backend.trans h.backend
  cycles := Nat.le_trans h.cycles k.cycles
  rom := fun j hj => (k.rom j hj).trans (h.rom j hj)
  ok := fun g => k.ok (h.ok g)

/-! ### The invariant under updates -/

/-- The invariant reads seven components. -/
theorem DevicesOk.congr {s t : State} (h : DevicesOk s) (hm : t.mem = s.mem) (hp : t.ppu = s.ppu) (ha : t.apu = s.apu)
    (ht : t.timers = s.timers) (hw : t.waitcnt = s.waitcnt) : DevicesOk t where
  mem := by rw [hm]; exact h.mem
  vcount := by rw [hp]; exact h.vcount
  dispcnt := by rw [hp]; exact h.dispcnt
  waitcnt := by rw [hw]; exact h.waitcnt
  fifoA := by rw [ha]; exact h.fifoA
  fifoB := by rw [ha]; exact h.fifoB
  timers := by simp only [State.timer, ht]; exact h.timers

/-- A step that leaves those components and the fixed parts alone. -/
theorem DeviceStep.of_eq {s t : State} (hc : t.cpu = s.cpu) (hpa : t.params = s.params) (hb : t.biosLen = s.biosLen)
    (hr : t.romLen = s.romLen) (hf : t.fault = s.fault) (hs : t.save.backend = s.save.backend)
    (hcy : s.cycles ≤ t.cycles) (hm : t.mem = s.mem) (hp : t.ppu = s.ppu) (ha : t.apu = s.apu)
    (ht : t.timers = s.timers) (hw : t.waitcnt = s.waitcnt) : DeviceStep s t :=
  ⟨hc, hpa, hb, hr, hf, hs, hcy, fun _ _ => by rw [hm], fun g => g.congr hm hp ha ht hw⟩

theorem DevicesOk.setMem {s : State} (h : DevicesOk s) (m : Memory) (hm : m.wf = true) : DevicesOk (s.setMem m) :=
  ⟨hm, h.vcount, h.dispcnt, h.waitcnt, h.fifoA, h.fifoB, h.timers⟩

theorem DeviceStep.bill (s : State) (k : Nat) : DeviceStep s (s.bill k) :=
  .of_eq rfl rfl rfl rfl rfl rfl (Nat.le_add_right _ _) rfl rfl rfl rfl rfl

theorem DeviceStep.billAccess (s : State) (a : Word) (w : Width) (seq : Bool) : DeviceStep s (s.billAccess a w seq) :=
  .bill s _

theorem DeviceStep.read {s t : State} (h : ReadStep s t) : DeviceStep s t :=
  .of_eq h.cpu h.params h.biosLen h.romLen h.fault h.backend (Nat.le_of_eq h.cycles.symm) h.mem h.ppu h.apu h.timers
    h.waitcnt

theorem DeviceStep.raiseIrqIf (s : State) (b : Bool) (k : Nat) : DeviceStep s (s.raiseIrqIf b k) := by
  unfold State.raiseIrqIf; split
  · exact .of_eq rfl rfl rfl rfl rfl rfl (Nat.le_refl _) rfl rfl rfl rfl rfl
  · exact .refl s

theorem DeviceStep.setDmaChan (s : State) (n : Fin 4) (d : DmaChannel) : DeviceStep s (s.setDmaChan n d) :=
  .of_eq rfl rfl rfl rfl rfl rfl (Nat.le_refl _) rfl rfl rfl rfl rfl

theorem DeviceStep.holdDma (s : State) (n : Fin 4) : DeviceStep s (s.holdDma n) := by
  unfold State.holdDma; split
  · exact .refl s
  · exact .of_eq rfl rfl rfl rfl rfl rfl (Nat.le_refl _) rfl rfl rfl rfl rfl

theorem DeviceStep.setFlash (s : State) (f : Flash) : DeviceStep s (s.setFlash f) :=
  .of_eq rfl rfl rfl rfl rfl rfl (Nat.le_refl _) rfl rfl rfl rfl rfl

theorem DeviceStep.setEeprom (s : State) (e : Eeprom) : DeviceStep s (s.setEeprom e) :=
  .of_eq rfl rfl rfl rfl rfl rfl (Nat.le_refl _) rfl rfl rfl rfl rfl

/-- A memory update that keeps the canonical form and the read-only bytes. -/
theorem DeviceStep.setMem (s : State) (m : Memory) (hr : ∀ k, readOnlyKey k → m.byte k = s.mem.byte k)
    (hw : s.mem.wf = true → m.wf = true) : DeviceStep s (s.setMem m) :=
  ⟨rfl, rfl, rfl, rfl, rfl, rfl, Nat.le_refl _, hr, fun g => g.setMem m (hw g.mem)⟩

/-- A range of storage addresses outside the read-only ones. -/
def Writable (k n : Nat) : Prop := ∀ j, k ≤ j → j < k + n → ¬readOnlyKey j

theorem Writable.of_bounds {k n lo hi : Nat} (h1 : lo ≤ k) (h2 : k + n ≤ hi)
    (h3 : (0x4000 ≤ lo ∧ hi ≤ 0x08000000) ∨ 0x0A000000 ≤ lo) : Writable k n := by
  intro j hj hj'; unfold readOnlyKey; omega

theorem Width.bytes_le (w : Width) : w.bytes ≤ 4 := by cases w <;> simp [Width.bytes]

theorem DeviceStep.write (s : State) (k : Nat) (v : Word) (w : Width) (h : Writable k w.bytes) :
    DeviceStep s (s.setMem (s.mem.write k v w)) := by
  refine .setMem s _ (fun j hj => ?_) (Memory.wf_write _ _ _ _)
  rw [Memory.byte_write, if_neg (fun hc => h j hc.1 hc.2 hj)]

/-! ### Storage addresses of the regions -/

theorem writable_ewram (a : Word) (w : Width) : Writable (storageKey .ewram a) w.bytes :=
  .of_bounds (lo := 0x02000000) (hi := 0x02040004) (by simp [storageKey]) (by
    have := w.bytes_le; simp only [storageKey]; omega) (by omega)

theorem writable_iwram (a : Word) (w : Width) : Writable (storageKey .iwram a) w.bytes :=
  .of_bounds (lo := 0x03000000) (hi := 0x03008004) (by simp [storageKey]) (by
    have := w.bytes_le; simp only [storageKey]; omega) (by omega)

theorem writable_palette (a : Word) (w : Width) : Writable (storageKey .palette a) w.bytes :=
  .of_bounds (lo := 0x05000000) (hi := 0x05000404) (by simp [storageKey]) (by
    have := w.bytes_le; simp only [storageKey]; omega) (by omega)

theorem writable_vram (a : Word) (w : Width) : Writable (storageKey .vram a) w.bytes :=
  .of_bounds (lo := 0x06000000) (hi := 0x06020004) (by simp [storageKey]) (by
    have := w.bytes_le; simp only [storageKey, vramOffset]; split <;> omega) (by omega)

theorem writable_oam (a : Word) (w : Width) : Writable (storageKey .oam a) w.bytes :=
  .of_bounds (lo := 0x07000000) (hi := 0x07000404) (by simp [storageKey]) (by
    have := w.bytes_le; simp only [storageKey]; omega) (by omega)

theorem writable_save (k n : Nat) (h : saveBase ≤ k) : Writable k n :=
  .of_bounds (lo := saveBase) (hi := k + n) h (Nat.le_refl _) (by simp [saveBase])

theorem writable_wave (b : Bool) (i : Nat) (w : Width) (hi : i < 0x1000) : Writable (waveKey b i) w.bytes :=
  .of_bounds (lo := 0x04000090) (hi := 0x04002000) (by simp [waveKey]; omega) (by
    have := w.bytes_le; simp only [waveKey]; split <;> omega) (by omega)

/-! ### Video and audio -/

theorem DeviceStep.mapPpu (s : State) (f : Ppu → Ppu) (hv : s.ppu.vcount < 228 → (f s.ppu).vcount < 228)
    (hd : s.ppu.dispcnt.getLsbD 3 = false → (f s.ppu).dispcnt.getLsbD 3 = false) : DeviceStep s (s.mapPpu f) :=
  ⟨rfl, rfl, rfl, rfl, rfl, rfl, Nat.le_refl _, fun _ _ => rfl,
    fun g => ⟨g.mem, hv g.vcount, hd g.dispcnt, g.waitcnt, g.fifoA, g.fifoB, g.timers⟩⟩

theorem DeviceStep.mapApu (s : State) (f : Apu → Apu) (ha : s.apu.fifoA.length ≤ 32 → (f s.apu).fifoA.length ≤ 32)
    (hb : s.apu.fifoB.length ≤ 32 → (f s.apu).fifoB.length ≤ 32) : DeviceStep s (s.mapApu f) :=
  ⟨rfl, rfl, rfl, rfl, rfl, rfl, Nat.le_refl _, fun _ _ => rfl,
    fun g => ⟨g.mem, g.vcount, g.dispcnt, g.waitcnt, ha g.fifoA, hb g.fifoB, g.timers⟩⟩

/-- An APU update that leaves the FIFOs alone. -/
structure KeepsFifos (a b : Apu) : Prop where
  fifoA : b.fifoA = a.fifoA
  fifoB : b.fifoB = a.fifoB

theorem KeepsFifos.refl (a : Apu) : KeepsFifos a a := ⟨rfl, rfl⟩
theorem KeepsFifos.trans {a b c : Apu} (h : KeepsFifos a b) (k : KeepsFifos b c) : KeepsFifos a c :=
  ⟨k.fifoA.trans h.fifoA, k.fifoB.trans h.fifoB⟩
/-- The same with the later update first. -/
theorem KeepsFifos.after {a b c : Apu} (k : KeepsFifos b c) (h : KeepsFifos a b) : KeepsFifos a c := h.trans k

theorem KeepsFifos.setOn (a : Apu) (k : Fin 4) (b : Bool) : KeepsFifos a (a.setOn k b) := ⟨rfl, rfl⟩

theorem KeepsFifos.stepGenerator (a : Apu) (k : Fin 4) (n : Nat) : KeepsFifos a (a.stepGenerator k n) := by
  unfold Apu.stepGenerator; repeat' split
  all_goals exact ⟨rfl, rfl⟩

theorem KeepsFifos.advance (a : Apu) (k : Fin 4) (t : Nat) : KeepsFifos a (a.advance k t) := by
  unfold Apu.advance; split
  · exact ⟨rfl, rfl⟩
  · exact (KeepsFifos.stepGenerator a k _).trans ⟨rfl, rfl⟩

theorem KeepsFifos.advanceAll (a : Apu) (t : Nat) : KeepsFifos a (a.advanceAll t) :=
  (((KeepsFifos.advance a 0 t).trans (.advance _ 1 t)).trans (.advance _ 2 t)).trans (.advance _ 3 t)

theorem KeepsFifos.sweepCheck (a : Apu) (n : Nat) : KeepsFifos a (a.sweepCheck n) := by
  unfold Apu.sweepCheck; split <;> exact ⟨rfl, rfl⟩

theorem KeepsFifos.restartSweep (a : Apu) : KeepsFifos a a.restartSweep := by
  unfold Apu.restartSweep; dsimp only; split
  · exact ⟨rfl, rfl⟩
  · exact (KeepsFifos.sweepCheck _ _).after ⟨rfl, rfl⟩

theorem KeepsFifos.restart (a : Apu) (k : Fin 4) (t : Nat) : KeepsFifos a (a.restart k t) := by
  unfold Apu.restart; dsimp only
  split
  · exact (KeepsFifos.restartSweep _).after ⟨rfl, rfl⟩
  · repeat' split
    all_goals exact ⟨rfl, rfl⟩

theorem KeepsFifos.restartIf (a : Apu) (v : Half) (k : Fin 4) (t : Nat) : KeepsFifos a (a.restartIf v k t) := by
  unfold Apu.restartIf; split
  · exact .restart a k t
  · exact .refl a

theorem KeepsFifos.dacCheck (a : Apu) (k : Fin 4) : KeepsFifos a (a.dacCheck k) := by
  unfold Apu.dacCheck; split <;> exact ⟨rfl, rfl⟩

theorem KeepsFifos.writeOn (a : Apu) (r : SoundReg) (v : Half) (t : Nat) : KeepsFifos a (a.writeOn r v t) := by
  cases r
  case cnt1X => exact (KeepsFifos.restartIf _ v 0 t).after ((KeepsFifos.advance a 0 t).trans ⟨rfl, rfl⟩)
  case cnt2H => exact (KeepsFifos.restartIf _ v 1 t).after ((KeepsFifos.advance a 1 t).trans ⟨rfl, rfl⟩)
  case cnt3X => exact (KeepsFifos.restartIf _ v 2 t).after ((KeepsFifos.advance a 2 t).trans ⟨rfl, rfl⟩)
  case cnt4H => exact (KeepsFifos.restartIf _ v 3 t).after ((KeepsFifos.advance a 3 t).trans ⟨rfl, rfl⟩)
  case cnt3L => exact (KeepsFifos.dacCheck _ 2).after ((KeepsFifos.advance a 2 t).trans ⟨rfl, rfl⟩)
  case cnt1H => exact (KeepsFifos.dacCheck _ 0).after ⟨rfl, rfl⟩
  case cnt2L => exact (KeepsFifos.dacCheck _ 1).after ⟨rfl, rfl⟩
  case cnt4L => exact (KeepsFifos.dacCheck _ 3).after ⟨rfl, rfl⟩
  all_goals exact ⟨rfl, rfl⟩

theorem KeepsFifos.writeReg (a : Apu) (r : SoundReg) (v : Half) (t : Nat) : KeepsFifos a (a.writeReg r v t) := by
  unfold Apu.writeReg; split
  · exact .writeOn a r v t
  · exact .refl a

theorem KeepsFifos.writeCntX (a : Apu) (v : Half) (t : Nat) : KeepsFifos a (a.writeCntX v t) := by
  unfold Apu.writeCntX; split
  · exact ⟨rfl, rfl⟩
  · exact (KeepsFifos.advanceAll a t).trans ⟨rfl, rfl⟩

theorem KeepsFifos.clockLength (a : Apu) (k : Fin 4) : KeepsFifos a (a.clockLength k) := by
  unfold Apu.clockLength; dsimp only; split <;> exact ⟨rfl, rfl⟩

theorem KeepsFifos.clockLengths (a : Apu) : KeepsFifos a a.clockLengths :=
  (((KeepsFifos.clockLength a 0).trans (.clockLength _ 1)).trans (.clockLength _ 2)).trans (.clockLength _ 3)

theorem KeepsFifos.sweepStep (a : Apu) (t : Nat) : KeepsFifos a (a.sweepStep t) := by
  unfold Apu.sweepStep; split
  · dsimp only; split
    · exact ⟨rfl, rfl⟩
    · split
      · exact .refl a
      · exact (KeepsFifos.sweepCheck _ _).after ((KeepsFifos.advance a 0 t).trans ⟨rfl, rfl⟩)
  · exact .refl a

theorem KeepsFifos.clockSweep (a : Apu) (t : Nat) : KeepsFifos a (a.clockSweep t) := by
  unfold Apu.clockSweep; split
  · exact .refl a
  · split
    · exact (KeepsFifos.sweepStep _ t).after ⟨rfl, rfl⟩
    · exact ⟨rfl, rfl⟩

theorem KeepsFifos.clockEnvelope (a : Apu) (k : Fin 4) : KeepsFifos a (a.clockEnvelope k) := by
  unfold Apu.clockEnvelope; dsimp only; repeat' split
  all_goals exact ⟨rfl, rfl⟩

theorem KeepsFifos.frameStep (a : Apu) (t : Nat) : KeepsFifos a (a.frameStep t) := by
  have h1 : KeepsFifos a (if a.fsStep.getLsbD 0 then a else a.clockLengths) := by
    split
    · exact .refl a
    · exact .clockLengths a
  have h2 : ∀ b, KeepsFifos a b → KeepsFifos a (if a.fsStep = 2#3 ∨ a.fsStep = 6#3 then b.clockSweep t else b) := by
    intro b hb; split
    · exact hb.trans (.clockSweep b t)
    · exact hb
  have h3 : ∀ b, KeepsFifos a b → KeepsFifos a (if a.fsStep = 7#3 then b.clockEnvelopes else b) := by
    intro b hb; split
    · exact hb.trans (((KeepsFifos.clockEnvelope b 0).trans (.clockEnvelope _ 1)).trans (.clockEnvelope _ 3))
    · exact hb
  exact (h3 _ (h2 _ h1)).trans ⟨rfl, rfl⟩

theorem DeviceStep.mapApu_keeps (s : State) (f : Apu → Apu) (h : KeepsFifos s.apu (f s.apu)) :
    DeviceStep s (s.mapApu f) := .mapApu s f (by rw [h.fifoA]; exact id) (by rw [h.fifoB]; exact id)

theorem fifoPush_length (q bs : List Byte) (h : q.length ≤ 32) : (fifoPush q bs).length ≤ 32 := by
  simp only [fifoPush, List.length_append, List.length_take]; omega

theorem DeviceStep.push (s : State) (x : Fifo) (bs : List Byte) : DeviceStep s (s.mapApu (·.push x bs)) := by
  cases x
  · exact .mapApu s _ (fifoPush_length _ _) id
  · exact .mapApu s _ id (fifoPush_length _ _)

theorem DeviceStep.takeSample (s : State) (x : Fifo) : DeviceStep s (s.mapApu (·.takeSample x)) := by
  cases x
  · exact .mapApu s _ (fun h => Nat.le_trans (by simp [Apu.takeSample]) h) id
  · exact .mapApu s _ id (fun h => Nat.le_trans (by simp [Apu.takeSample]) h)

theorem DeviceStep.apuFrameEvent (s : State) (t : Nat) : DeviceStep s (s.apuFrameEvent t) :=
  .mapApu_keeps s (fun a => a.frameStep t) (.frameStep _ t)

theorem DeviceStep.putSample (s : State) (p : Int × Int) : DeviceStep s (s.putSample p) :=
  .of_eq rfl rfl rfl rfl rfl rfl (Nat.le_refl _) rfl rfl rfl rfl rfl

theorem DeviceStep.handFrame (s : State) : DeviceStep s s.handFrame :=
  .of_eq rfl rfl rfl rfl rfl rfl (Nat.le_refl _) rfl rfl rfl rfl rfl

/-- R1061, D87: without the master enable the output is silent, whatever MIX is. -/
theorem State.mixed_silent (s : State) (h : s.apu.master = false) : s.mixed = (0, 0) := by
  cases hm : s.params.mixing <;> simp [State.mixed, Apu.mix, h, hm]

theorem DeviceStep.apuSampleEvent (s : State) (t : Nat) : DeviceStep s (s.apuSampleEvent t) :=
  DeviceStep.trans
    (.mapApu_keeps s (fun a => { a.advanceAll t with
      nextSmp := (a.advanceAll t).nextSmp + max 1 s.params.samplePeriod }) ((KeepsFifos.advanceAll _ t).trans ⟨rfl, rfl⟩))
    (.putSample _ _)

theorem enterHblank_keeps (p : Ppu) (m : Memory) (t : Nat) :
    (p.enterHblank m t).vcount = p.vcount ∧ (p.enterHblank m t).dispcnt = p.dispcnt := by
  unfold Ppu.enterHblank; dsimp only; split
  · unfold Ppu.drawLine Ppu.putLine; dsimp only; repeat' split
    all_goals exact ⟨rfl, rfl⟩
  · exact ⟨rfl, rfl⟩

theorem enterLine_keeps (p : Ppu) (t : Nat) :
    (p.enterLine t).vcount = (p.vcount + 1) % 228 ∧ (p.enterLine t).dispcnt = p.dispcnt := by
  unfold Ppu.enterLine; dsimp only; split <;> exact ⟨rfl, rfl⟩

/-! ### Timers -/

/-- A timer whose counter and base are 16 bits. -/
def Timer.small (t : Timer) : Prop := t.count < 0x10000 ∧ t.start < 0x10000

theorem DevicesOk.setTimer {s : State} (h : DevicesOk s) (n : Fin 4) (t : Timer) (ht : t.small) :
    DevicesOk (s.setTimer n t) := by
  refine ⟨h.mem, h.vcount, h.dispcnt, h.waitcnt, h.fifoA, h.fifoB, fun j => ?_⟩
  have : (s.setTimer n t).timer j = if n = j then t else s.timer j := by
    show (s.timers.set n.val t n.isLt)[j.val] = if n = j then t else s.timers[j.val]
    simp only [Vector.getElem_set, Fin.ext_iff]
  rw [this]; split
  · exact ht
  · exact h.timers j

theorem DeviceStep.setTimer (s : State) (n : Fin 4) (t : Timer) (ht : (s.timer n).small → t.small) :
    DeviceStep s (s.setTimer n t) :=
  ⟨rfl, rfl, rfl, rfl, rfl, rfl, Nat.le_refl _, fun _ _ => rfl, fun g => g.setTimer n t (ht (g.timers n))⟩

theorem Timer.countAt_lt (t : Timer) (n : Fin 4) (now : Nat) (h : t.count < 0x10000) : t.countAt n now < 0x10000 := by
  have hr := t.reload.isLt
  unfold Timer.countAt; split
  · exact h
  · dsimp only; split
    · omega
    · have := Nat.mod_lt (t.start + ((now - t.t0) >>> t.shift) - 0x10000) (show 0 < 0x10000 - t.reload.toNat by omega)
      omega

theorem Timer.writeControl_small (t : Timer) (n : Fin 4) (v : Half) (now : Nat) (h : t.small) :
    (t.writeControl n v now).small := by
  have hc := t.countAt_lt n now h.1
  have hr : t.reload.toNat < 0x10000 := t.reload.isLt
  have h1 := h.1
  have h2 := h.2
  unfold Timer.writeControl Timer.small; dsimp only
  repeat' split
  all_goals (dsimp only; constructor <;> assumption)

theorem Timer.reloadAt_small (t : Timer) (n : Fin 4) (time : Nat) : (t.reloadAt n time).small := by
  have hr : t.reload.toNat < 0x10000 := t.reload.isLt
  unfold Timer.reloadAt Timer.small; dsimp only; split <;> exact ⟨hr, hr⟩

/-! ### I/O writes -/

theorem DeviceStep.writeDmaControl (s : State) (n : Fin 4) (v : Half) : DeviceStep s (s.writeDmaControl n v) := by
  unfold State.writeDmaControl; dsimp only; split
  · split
    · exact (DeviceStep.setDmaChan s n _).trans (.holdDma _ n)
    · exact .setDmaChan s n _
  · exact .setDmaChan s n _

theorem DeviceStep.writeHaltcnt (s : State) (v : Byte) : DeviceStep s (s.writeHaltcnt v) := by
  unfold State.writeHaltcnt; split
  · split
    · exact .of_eq rfl rfl rfl rfl rfl rfl (Nat.le_refl _) rfl rfl rfl rfl rfl
    · exact .refl s
  · exact .of_eq rfl rfl rfl rfl rfl rfl (Nat.le_refl _) rfl rfl rfl rfl rfl

theorem DeviceStep.writePostflg (s : State) (v : Byte) : DeviceStep s (s.writePostflg v) :=
  .of_eq rfl rfl rfl rfl rfl rfl (Nat.le_refl _) rfl rfl rfl rfl rfl

/-- What a 16-bit write of a register may do. -/
theorem DeviceStep.writeReg (s : State) (r : IoReg) (v : Half) : DeviceStep s (s.writeReg r v) := by
  cases r
  case dispcnt => exact .mapPpu s (·.writeDispcnt v) id (fun _ => by simp [Ppu.writeDispcnt])
  case dispstat => exact .mapPpu s (·.writeDispstat v) id id
  case bgcnt k => exact .mapPpu s (·.writeBgcnt k v) id id
  case hofs k => exact .mapPpu s (·.writeHofs k v) id id
  case vofs k => exact .mapPpu s (·.writeVofs k v) id id
  case affineParam k p => exact .mapPpu s (fun q => q.setAffine k ((q.affine.get k).setParam v p)) id id
  case refX k high => exact .mapPpu s (fun q => q.setAffine k ((q.affine.get k).writeX high v)) id id
  case refY k high => exact .mapPpu s (fun q => q.setAffine k ((q.affine.get k).writeY high v)) id id
  case win0h => exact .mapPpu s (fun q => { q with win0h := v }) id id
  case win1h => exact .mapPpu s (fun q => { q with win1h := v }) id id
  case win0v => exact .mapPpu s (fun q => { q with win0v := v }) id id
  case win1v => exact .mapPpu s (fun q => { q with win1v := v }) id id
  case winin => exact .mapPpu s (fun q => { q with winin := v &&& 0x3F3F#16 }) id id
  case winout => exact .mapPpu s (fun q => { q with winout := v &&& 0x3F3F#16 }) id id
  case mosaic => exact .mapPpu s (fun q => { q with mosaic := v }) id id
  case bldcnt => exact .mapPpu s (fun q => { q with bldcnt := v &&& 0x3FFF#16 }) id id
  case bldalpha => exact .mapPpu s (fun q => { q with bldalpha := v &&& 0x1F1F#16 }) id id
  case bldy => exact .mapPpu s (fun q => { q with bldy := v.setWidth 5 }) id id
  case vcount => exact .refl s
  case keyinput => exact .refl s
  case sound r => exact .mapApu_keeps s (fun a => a.writeReg r v s.cycles) (.writeReg _ r v _)
  case soundCntX => exact .mapApu_keeps s (fun a => a.writeCntX v s.cycles) (.writeCntX _ v _)
  case soundCntH =>
    refine .mapApu s (·.writeCntH v) (fun h => ?_) (fun h => ?_) <;> simp only [Apu.writeCntH] <;> split <;> simp_all
  case soundBias => exact .mapApu s (·.writeBias v) id id
  case wave i => exact .write s _ _ .half (writable_wave _ _ _ (by omega))
  case fifo x => exact .push s x _
  case dmaSad n high => exact .setDmaChan s n _
  case dmaDad n high => exact .setDmaChan s n _
  case dmaCount n => exact .setDmaChan s n _
  case dmaControl n => exact .writeDmaControl s n v
  case timerCount n => exact .setTimer s n _ id
  case timerControl n => exact .setTimer s n _ (Timer.writeControl_small _ n v _)
  case postHalt => exact (DeviceStep.writePostflg s _).trans (.writeHaltcnt _ _)
  case waitcnt =>
    exact ⟨rfl, rfl, rfl, rfl, rfl, rfl, Nat.le_refl _, fun _ _ => rfl,
      fun g => ⟨g.mem, g.vcount, g.dispcnt, by simp [State.writeReg, waitcntMask], g.fifoA, g.fifoB, g.timers⟩⟩
  case sio r => exact .of_eq rfl rfl rfl rfl rfl rfl (Nat.le_refl _) rfl rfl rfl rfl rfl
  case keycnt => exact .of_eq rfl rfl rfl rfl rfl rfl (Nat.le_refl _) rfl rfl rfl rfl rfl
  case ie => exact .of_eq rfl rfl rfl rfl rfl rfl (Nat.le_refl _) rfl rfl rfl rfl rfl
  case ifl => exact .of_eq rfl rfl rfl rfl rfl rfl (Nat.le_refl _) rfl rfl rfl rfl rfl
  case ime => exact .of_eq rfl rfl rfl rfl rfl rfl (Nat.le_refl _) rfl rfl rfl rfl rfl

theorem DeviceStep.writeIoHalf (s : State) (o : Nat) (v : Half) : DeviceStep s (s.writeIoHalf o v) := by
  unfold State.writeIoHalf; split
  · exact .refl s
  · exact .writeReg s _ v

theorem DeviceStep.writeIo (s : State) (o : Nat) (v : Word) (w : Width) : DeviceStep s (s.writeIo o v w) := by
  cases w
  · simp only [State.writeIo]; split
    · exact .refl s
    · unfold State.writeIoByteMerge; split
      · exact .refl s
      · exact .push s _ _
      · split
        · exact .writePostflg s _
        · exact .writeHaltcnt s _
      · exact .writeReg s _ _
  · exact .writeIoHalf s _ _
  · exact (DeviceStep.writeIoHalf s _ _).trans (.writeIoHalf _ _ _)

end Sys2Proof.Machine
end

