-- ==== Sys2Proof/Laws/Events.lean ====
section
/-! SUPPORT. What a bus write, a DMA transfer, a chain of held triggers and an event pass may do. -/

namespace Sys2Proof.Machine

/-- No trigger waits and no transfer runs. -/
def Idle (s : State) : Prop := s.dma.held = [] ∧ s.dma.running = none

/-- A device step that leaves DMA idle if it was. -/
structure EventStep (s t : State) : Prop where
  device : DeviceStep s t
  idle : Idle s → Idle t

theorem EventStep.refl (s : State) : EventStep s s := ⟨.refl s, id⟩

theorem EventStep.trans {s t u : State} (h : EventStep s t) (k : EventStep t u) : EventStep s u :=
  ⟨h.device.trans k.device, fun i => k.idle (h.idle i)⟩

/-- A device step that leaves the DMA controller alone. -/
theorem EventStep.of_dma {s t : State} (h : DeviceStep s t) (hd : t.dma = s.dma) : EventStep s t :=
  ⟨h, fun i => by unfold Idle; rw [hd]; exact i⟩

/-! ### Running a computation that may fault -/

/-- Take a bind apart. -/
theorem bind_ok {α β : Type} {x : Except Fault α} {f : α → Except Fault β} {b : β} (h : x >>= f = .ok b) :
    ∃ a, x = .ok a ∧ f a = .ok b := by
  cases x with
  | error e => cases h
  | ok a => exact ⟨a, rfl, h⟩

theorem pure_ok {α : Type} {a b : α} (h : (pure a : Except Fault α) = .ok b) : b = a := by cases h; rfl

/-! ### Writes -/

theorem DeviceStep.writeTwice_palette (s : State) (a v : Word) : DeviceStep s (s.writeTwice .palette a v) :=
  .write s _ _ .half (writable_palette _ _)

theorem DeviceStep.writeTwice_vram (s : State) (a v : Word) : DeviceStep s (s.writeTwice .vram a v) :=
  .write s _ _ .half (writable_vram _ _)

theorem DeviceStep.flashErase (s : State) (o : Nat) (v : Byte) : DeviceStep s (s.flashErase o v) := by
  have erase : ∀ k n f, saveBase ≤ k → DeviceStep s ((s.setMem (s.mem.erase k n)).setFlash f) := by
    intro k n f hk
    refine (DeviceStep.setMem s _ (fun j hj => ?_) (Memory.wf_erase _ _ _)).trans (.setFlash _ _)
    refine Memory.byte_erase_of_ne _ _ _ _ ?_
    by_cases h : j < k
    · exact .inl h
    · by_cases h' : j < k + n
      · exact absurd hj (writable_save k n hk j (by omega) h')
      · exact .inr (by omega)
  unfold State.flashErase; dsimp only; split
  · exact erase _ _ _ (Nat.le_refl _)
  · split
    · exact erase _ _ _ (by simp only [Flash.key]; omega)
    · exact .setFlash s _

theorem DeviceStep.setSave (s : State) (k : Nat) (v : Byte) (hk : saveBase ≤ k) :
    DeviceStep s (s.setMem (s.mem.set k v)) := by
  refine .setMem s _ (fun j hj => ?_) (Memory.wf_set _ _ _)
  rw [Memory.byte_set, if_neg]
  rintro rfl
  exact writable_save j 1 hk j (Nat.le_refl _) (by omega) hj

theorem DeviceStep.flashWrite (s : State) (o : Nat) (v : Byte) : DeviceStep s (s.flashWrite o v) := by
  unfold State.flashWrite; dsimp only; split
  · exact (DeviceStep.setSave s _ v (by simp only [Flash.key]; omega)).trans (.setFlash _ _)
  · split
    · exact .setFlash s _
    · split
      · split
        · exact .setFlash s _
        · exact .refl s
      · split <;> exact .setFlash s _
      · split
        · exact .flashErase s o v
        · split <;> exact .setFlash s _

theorem DeviceStep.eepromWrite (s : State) (b : Bool) : DeviceStep s (s.eepromWrite b) := by
  unfold State.eepromWrite; dsimp only
  generalize (if s.save.eeprom.bits = .undecided then EepromBits.fourteen else s.save.eeprom.bits) = bits
  split
  · exact .setEeprom s _
  · split
    · exact .setEeprom s _
    · split
      · refine (DeviceStep.setMem s _ (fun j hj => ?_) (Memory.wf_load _ _ _)).trans (.setEeprom _ _)
        refine Memory.byte_load_of_ne _ _ _ _ (.inl ?_)
        unfold readOnlyKey at hj; simp only [EepromBits.blockKey, saveBase]; omega
      · exact .setEeprom s _

theorem DeviceStep.writeRom (s : State) (a v : Word) (w : Width) : DeviceStep s (s.writeRom a v w) := by
  unfold State.writeRom; split
  · exact .eepromWrite s _
  · split
    · exact .of_eq rfl rfl rfl rfl rfl rfl (Nat.le_refl _) rfl rfl rfl rfl rfl
    · exact .refl s

theorem DeviceStep.writeSave {s t : State} {a v : Word} {w : Width} (h : s.writeSave a v w = .ok t) : DeviceStep s t := by
  cases w
  · simp only [State.writeSave] at h; split at h <;> cases h
    · exact .write s _ _ .byte (writable_save _ _ (by simp [storageKey]))
    · exact .flashWrite s _ _
  · cases h
  · cases h

/-- What R.write may do. -/
theorem DeviceStep.writeRaw {s t : State} {a v : Word} {w : Width} (h : s.writeRaw a w v = .ok t) : DeviceStep s t := by
  unfold State.writeRaw at h; split at h
  · cases h; exact .refl _
  · cases h; exact .writeIo s _ v w
  iterate 3 (cases h; exact .writeRom s a v w)
  · exact .writeSave h
  · cases h; exact .refl _
  · cases h; exact .write s _ v w (writable_ewram a w)
  · cases h; exact .write s _ v w (writable_iwram a w)
  · cases h
    cases w
    · exact .writeTwice_palette s a v
    · exact .write s _ v .half (writable_palette a .half)
    · exact .write s _ v .word (writable_palette a .word)
  · cases h
    cases w
    · simp only [State.writeVram]; split
      · exact .writeTwice_vram s a v
      · exact .refl s
    · exact .write s _ v .half (writable_vram a .half)
    · exact .write s _ v .word (writable_vram a .word)
  · cases h
    cases w
    · exact .refl s
    · exact .write s _ v .half (writable_oam a .half)
    · exact .write s _ v .word (writable_oam a .word)

theorem DeviceStep.invalidatePages (s : State) (a : Word) : DeviceStep s (s.invalidatePages a) :=
  .of_eq rfl rfl rfl rfl rfl rfl (Nat.le_refl _) rfl rfl rfl rfl rfl

theorem DeviceStep.busWrite {s t : State} {win : Window} {a v : Word} {w : Width} {seq : Bool}
    (h : s.busWrite win a w v seq = .ok t) : DeviceStep s t := by
  unfold State.busWrite at h; split at h
  · cases h
  · exact ((DeviceStep.billAccess s a w seq).trans (.invalidatePages _ _)).trans (.writeRaw h)

/-! ### The running channel -/

theorem State.holdDma_running (s : State) (n : Fin 4) : (s.holdDma n).dma.running = s.dma.running := by
  unfold State.holdDma; split <;> rfl

theorem State.writeReg_running (s : State) (r : IoReg) (v : Half) : (s.writeReg r v).dma.running = s.dma.running := by
  cases r
  case dmaControl n =>
    simp only [State.writeReg, State.writeDmaControl]; split
    · split
      · rw [State.holdDma_running]; rfl
      · rfl
    · rfl
  case postHalt =>
    simp only [State.writeReg, State.writeHaltcnt]; split
    · split <;> rfl
    · rfl
  all_goals rfl

theorem State.writeIoHalf_running (s : State) (o : Nat) (v : Half) :
    (s.writeIoHalf o v).dma.running = s.dma.running := by
  unfold State.writeIoHalf; split
  · rfl
  · exact s.writeReg_running _ v

theorem State.writeIo_running (s : State) (o : Nat) (v : Word) (w : Width) :
    (s.writeIo o v w).dma.running = s.dma.running := by
  cases w
  · simp only [State.writeIo]; split
    · rfl
    · unfold State.writeIoByteMerge; split
      · rfl
      · rfl
      · split
        · rfl
        · unfold State.writeHaltcnt; split
          · split <;> rfl
          · rfl
      · exact s.writeReg_running _ _
  · exact s.writeIoHalf_running _ _
  · simp only [State.writeIo]; rw [State.writeIoHalf_running, State.writeIoHalf_running]

theorem State.flashErase_dma (s : State) (o : Nat) (b : Byte) : (s.flashErase o b).dma = s.dma := by
  have h : ∀ (m : Memory) (f : Flash), ((s.setMem m).setFlash f).dma = s.dma := fun _ _ => rfl
  unfold State.flashErase; dsimp only; split
  · exact h _ _
  · split
    · exact h _ _
    · rfl

theorem State.flashWrite_dma (s : State) (o : Nat) (b : Byte) : (s.flashWrite o b).dma = s.dma := by
  have h : ∀ (m : Memory) (f : Flash), ((s.setMem m).setFlash f).dma = s.dma := fun _ _ => rfl
  unfold State.flashWrite; dsimp only; split
  · exact h _ _
  · split
    · rfl
    · split
      · split <;> rfl
      · split <;> rfl
      · split
        · exact s.flashErase_dma o b
        · split <;> rfl

theorem State.writeRom_dma (s : State) (a v : Word) (w : Width) : (s.writeRom a v w).dma = s.dma := by
  have h : ∀ (m : Memory) (f : Eeprom), ((s.setMem m).setEeprom f).dma = s.dma := fun _ _ => rfl
  unfold State.writeRom; split
  · unfold State.eepromWrite; dsimp only
    generalize (if s.save.eeprom.bits = .undecided then EepromBits.fourteen else s.save.eeprom.bits) = bits
    split
    · rfl
    · split
      · rfl
      · split
        · exact h _ _
        · rfl
  · split <;> rfl

/-- A write to a region other than I/O leaves the DMA controller alone. -/
theorem State.writeRaw_dma {s t : State} {a v : Word} {w : Width} (h : s.writeRaw a w v = .ok t)
    (hr : s.region a ≠ .io) : t.dma = s.dma := by
  unfold State.writeRaw at h; split at h
  · cases h; rfl
  · exact absurd ‹_› hr
  iterate 3 (cases h; exact s.writeRom_dma a v w)
  · cases w
    · simp only [State.writeSave] at h; split at h <;> cases h
      · rfl
      · exact s.flashWrite_dma _ _
    · cases h
    · cases h
  · cases h; rfl
  iterate 2 (cases h; rfl)
  · cases h; cases w <;> rfl
  · cases h
    cases w
    · simp only [State.writeVram]; split <;> rfl
    · rfl
    · rfl
  · cases h; cases w <;> rfl

theorem State.writeRaw_running {s t : State} {a v : Word} {w : Width} (h : s.writeRaw a w v = .ok t) :
    t.dma.running = s.dma.running := by
  by_cases hr : s.region a = .io
  · unfold State.writeRaw at h; rw [hr] at h; cases h; exact s.writeIo_running _ v w
  · rw [State.writeRaw_dma h hr]

theorem State.busWrite_running {s t : State} {win : Window} {a v : Word} {w : Width} {seq : Bool}
    (h : s.busWrite win a w v seq = .ok t) : t.dma.running = s.dma.running := by
  unfold State.busWrite at h; split at h
  · cases h
  · exact (State.writeRaw_running h).trans rfl

/-! ### DMA -/

theorem DeviceStep.dmaElement {s t : State} {win : Window} {n : Fin 4} {fifo : Bool} {w : Width} {seq : Bool}
    (h : s.dmaElement win n fifo w seq = .ok t) : DeviceStep s t := by
  obtain ⟨u, hu, ht⟩ := bind_ok h
  cases ht
  exact (((DeviceStep.billAccess s _ w seq).trans (.read (State.readRaw_readStep _ _ _ _))).trans
    (.busWrite hu)).trans (.setDmaChan u n _)

theorem DeviceStep.dmaElements {win : Window} {n : Fin 4} {fifo : Bool} {w : Width} (k : Nat) {seq : Bool} {s t : State}
    (h : s.dmaElements win n fifo w k seq = .ok t) : DeviceStep s t := by
  induction k generalizing seq s with
  | zero => cases h; exact .refl _
  | succ k ih =>
    obtain ⟨u, hu, ht⟩ := bind_ok h
    exact (DeviceStep.dmaElement hu).trans (ih ht)

theorem DeviceStep.eepromSizeHint (s : State) (n : Fin 4) (k : Nat) (d : Word) :
    DeviceStep s (s.eepromSizeHint n k d) := by
  unfold State.eepromSizeHint; dsimp only; repeat' split
  all_goals exact .setEeprom s _

theorem DeviceStep.endTransfer (s : State) (n : Fin 4) (fifo : Bool) : DeviceStep s (s.endTransfer n fifo) :=
  (DeviceStep.setDmaChan s n _).trans (.raiseIrqIf _ _ _)

/-- What a transfer may do. -/
theorem DeviceStep.transfer {s t : State} {win : Window} {n : Fin 4} (h : s.transfer win n = .ok t) :
    DeviceStep s t := by
  unfold State.transfer at h; dsimp only at h; split at h
  · cases h; exact .refl _
  · generalize (if (s.dmaChan n).feedsFifo n = true then 4 else (s.dmaChan n).icount) = k at h
    split at h
    · cases h; split
      · exact .setDmaChan s n _
      · exact .refl s
    · obtain ⟨u, hu, ht⟩ := bind_ok h
      cases ht
      exact (((DeviceStep.bill s _).trans (.eepromSizeHint _ _ _ _)).trans (.dmaElements _ hu)).trans
        (.endTransfer u n _)

theorem DeviceStep.startDma (s : State) (n : Fin 4) (r : List (Fin 4)) : DeviceStep s (s.startDma n r) :=
  .of_eq rfl rfl rfl rfl rfl rfl (Nat.le_refl _) rfl rfl rfl rfl rfl

theorem DeviceStep.stopDma (s : State) : DeviceStep s s.stopDma :=
  .of_eq rfl rfl rfl rfl rfl rfl (Nat.le_refl _) rfl rfl rfl rfl rfl

/-- With no trigger held, nothing runs. -/
theorem State.drainDma_nil (s : State) (win : Window) (n : Nat) (h : s.dma.held = []) : s.drainDma win n = .ok s := by
  cases n <;> simp [State.drainDma, h]

/-- What a chain of held triggers may do; at its end none is held. -/
theorem State.drainDma_step {win : Window} (n : Nat) {s t : State} (h : s.drainDma win n = .ok t) :
    DeviceStep s t ∧ t.dma.held = [] ∧ (s.dma.running = none → t.dma.running = none) := by
  induction n generalizing s with
  | zero =>
    simp only [State.drainDma] at h; split at h
    · cases h; exact ⟨.refl _, ‹_›, id⟩
    · cases h
  | succ n ih =>
    simp only [State.drainDma] at h; split at h
    · cases h; exact ⟨.refl _, ‹_›, id⟩
    · obtain ⟨u, hu, ht⟩ := bind_ok h
      obtain ⟨a, b, c⟩ := ih ht
      exact ⟨(((DeviceStep.startDma s _ _).trans (.transfer hu)).trans (.stopDma u)).trans a, b, fun _ => c rfl⟩

theorem EventStep.drainDma {win : Window} {n : Nat} {s t : State} (h : s.drainDma win n = .ok t) : EventStep s t :=
  let ⟨a, b, c⟩ := State.drainDma_step n h
  ⟨a, fun i => ⟨b, c i.2⟩⟩

theorem EventStep.triggerDma {win : Window} {n : Fin 4} {s t : State} (h : s.triggerDma win n = .ok t) :
    EventStep s t :=
  let ⟨a, b, c⟩ := State.drainDma_step passLimit h
  ⟨(DeviceStep.holdDma s n).trans a, fun i => ⟨b, c ((s.holdDma_running n).trans i.2)⟩⟩

theorem EventStep.triggerTimed {win : Window} {timing : BitVec 2} (ns : List (Fin 4)) {s t : State}
    (h : s.triggerTimed win timing ns = .ok t) : EventStep s t := by
  induction ns generalizing s with
  | nil => cases h; exact .refl _
  | cons n ns ih =>
    obtain ⟨u, hu, ht⟩ := bind_ok h
    refine EventStep.trans ?_ (ih ht)
    unfold State.triggerArmed at hu
    split at hu
    · exact .triggerDma hu
    · cases hu; exact .refl _

/-- MemWrite (R171): a bus write, then the DMA it starts. -/
theorem EventStep.memWrite {s t : State} {a v : Word} {w : Width} {seq : Bool} (h : s.memWrite a w v seq = .ok t) :
    EventStep s t := by
  obtain ⟨u, hu, ht⟩ := bind_ok h
  obtain ⟨a, b, c⟩ := State.drainDma_step passLimit ht
  exact ⟨(DeviceStep.busWrite hu).trans a, fun i => ⟨b, c ((State.busWrite_running hu).trans i.2)⟩⟩

/-! ### Events -/

theorem EventStep.refillFrom {win : Window} {x : Fifo} {n : Fin 4} {s t : State} (h : s.refillFrom win x n = .ok t) :
    EventStep s t := by
  unfold State.refillFrom at h; dsimp only at h; split at h
  · exact .triggerDma h
  · cases h; exact .refl _

theorem EventStep.fifoTick {win : Window} {n : Fin 4} {x : Fifo} {s t : State} (h : s.fifoTick win n x = .ok t) :
    EventStep s t := by
  unfold State.fifoTick at h; split at h
  · dsimp only at h; split at h
    · obtain ⟨u, hu, ht⟩ := bind_ok h
      exact (EventStep.of_dma (.takeSample s x) rfl).trans ((EventStep.refillFrom hu).trans (.refillFrom ht))
    · cases h; exact .of_dma (.takeSample s x) rfl
  · cases h; exact .refl _

theorem EventStep.fifoTimerTick {win : Window} {n : Fin 4} {s t : State} (h : s.fifoTimerTick win n = .ok t) :
    EventStep s t := by
  obtain ⟨u, hu, ht⟩ := bind_ok h
  exact (EventStep.fifoTick hu).trans (.fifoTick ht)

theorem State.setTimer_setTimer (s : State) (n : Fin 4) (t u : Timer) :
    (s.setTimer n t).setTimer n u = s.setTimer n u := by
  simp [State.setTimer]

theorem EventStep.raiseIrqIf (s : State) (b : Bool) (k : Nat) : EventStep s (s.raiseIrqIf b k) :=
  .of_dma (.raiseIrqIf s b k) (by unfold State.raiseIrqIf; split <;> rfl)

theorem EventStep.setTimer (s : State) (n : Fin 4) (t : Timer) (ht : t.small) : EventStep s (s.setTimer n t) :=
  .of_dma (.setTimer s n t (fun _ => ht)) rfl

/-- An overflow, from the state with the overflowing timer reloaded. -/
theorem EventStep.overflowOne {win : Window} {n : Fin 4} {time : Nat} {s t : State}
    (h : s.overflowOne win n time = .ok t) : ∃ x : Timer, x.small ∧ EventStep (s.setTimer n x) t := by
  refine ⟨(s.timer n).reloadAt n time, Timer.reloadAt_small _ _ _, ?_⟩
  unfold State.overflowOne at h; dsimp only at h; split at h
  · exact (EventStep.raiseIrqIf _ _ _).trans (.fifoTimerTick h)
  · cases h; exact .raiseIrqIf _ _ _

theorem EventStep.overflowChain {win : Window} {time : Nat} (n : Fin 4) (ns : List (Fin 4)) {s t : State}
    (h : s.overflowChain win time (n :: ns) = .ok t) : ∃ x : Timer, x.small ∧ EventStep (s.setTimer n x) t := by
  induction ns generalizing n s with
  | nil =>
    obtain ⟨u, hu, ht⟩ := bind_ok h
    cases ht
    exact EventStep.overflowOne hu
  | cons m ns ih =>
    obtain ⟨u, hu, ht⟩ := bind_ok h
    obtain ⟨x, hx, hxu⟩ := EventStep.overflowOne hu
    refine ⟨x, hx, hxu.trans ?_⟩
    dsimp only at ht
    unfold State.cascadeInto at ht
    dsimp only at ht
    split at ht
    · split at ht
      · obtain ⟨y, hy, hyt⟩ := ih m ht
        rw [State.setTimer_setTimer] at hyt
        exact (EventStep.setTimer u m y hy).trans hyt
      · cases ht
        rename_i hne
        refine .of_dma (.setTimer u m _ (fun hs => ⟨?_, hs.2⟩)) rfl
        have h1 := hs.1
        simp only [beq_iff_eq] at hne
        show (u.timer m).count + 1 < 0x10000
        omega
    · simp only [Bool.false_eq_true, if_false] at ht
      cases ht; exact .refl _

theorem EventStep.timerEvent {win : Window} {time : Nat} {n : Fin 4} {s t : State}
    (h : s.overflowChain win time (timersFrom n) = .ok t) : EventStep s t := by
  have : ∃ m ns, timersFrom n = m :: ns := by
    match n with
    | 0 | 1 | 2 | 3 => exact ⟨_, _, rfl⟩
  obtain ⟨m, ns, hm⟩ := this
  rw [hm] at h
  obtain ⟨x, hx, hxt⟩ := EventStep.overflowChain m ns h
  exact (EventStep.setTimer s m x hx).trans hxt

theorem EventStep.ppuEvent {win : Window} {time : Nat} {s t : State} (h : s.ppuEvent win time = .ok t) :
    EventStep s t := by
  unfold State.ppuEvent at h; split at h
  · unfold State.hblankStart at h; dsimp only at h
    have hh := enterHblank_keeps s.ppu s.mem time
    have h1 : EventStep s ((s.mapPpu (·.enterHblank s.mem time)).raiseIrqIf (s.ppu.dispstat.getLsbD 4) 1) :=
      (EventStep.of_dma (.mapPpu s _ (by rw [hh.1]; exact id) (by rw [hh.2]; exact id)) rfl).trans (.raiseIrqIf _ _ _)
    split at h
    · exact h1.trans (.triggerTimed _ h)
    · cases h; exact h1
  · obtain ⟨u, hu, ht⟩ := bind_ok h
    cases ht
    have hh := enterLine_keeps s.ppu time
    have h1 : EventStep s (s.mapPpu (·.enterLine time)) :=
      .of_dma (.mapPpu s _ (by rw [hh.1]; intro _; exact Nat.mod_lt _ (by omega)) (by rw [hh.2]; exact id)) rfl
    refine h1.trans (EventStep.trans ?_ (.raiseIrqIf _ _ _))
    unfold State.vblankStart at hu
    split at hu
    · exact (EventStep.of_dma (.handFrame _) rfl).trans ((EventStep.raiseIrqIf _ _ _).trans (.triggerTimed _ hu))
    · cases hu; exact .refl _

/-- What an event may do. -/
theorem EventStep.event {win : Window} {src : EventSource} {time : Nat} {s t : State}
    (h : s.event win src time = .ok t) : EventStep s t := by
  cases src
  case ppu => exact .ppuEvent h
  case timer0 => exact .timerEvent h
  case timer1 => exact .timerEvent h
  case timer2 => exact .timerEvent h
  case timer3 => exact .timerEvent h
  case apuFrame => cases h; exact .of_dma (.apuFrameEvent s time) rfl
  case apuSampler => cases h; exact .of_dma (.apuSampleEvent s time) rfl
  case serial => cases h; exact .refl _

theorem EventStep.runEvents {win : Window} (n : Nat) {s t : State} (h : s.runEvents win n = .ok t) : EventStep s t := by
  induction n generalizing s with
  | zero =>
    simp only [State.runEvents] at h; split at h
    · split at h
      · cases h
      · cases h; exact .refl _
    · cases h; exact .refl _
  | succ n ih =>
    simp only [State.runEvents] at h; split at h
    · split at h
      · obtain ⟨u, hu, ht⟩ := bind_ok h
        exact (EventStep.event hu).trans (ih ht)
      · cases h; exact .refl _
    · cases h; exact .refl _

theorem EventStep.wake (s : State) : EventStep s s.wake := by
  unfold State.wake; split
  · exact .of_dma (.of_eq rfl rfl rfl rfl rfl rfl (Nat.le_refl _) rfl rfl rfl rfl rfl) rfl
  · exact .refl s

/-- What an event pass may do (R852). -/
theorem EventStep.eventPass {s t : State} (h : s.eventPass = .ok t) : EventStep s t := by
  obtain ⟨u, hu, ht⟩ := bind_ok h
  cases ht
  exact ((EventStep.runEvents passLimit hu).trans (.raiseIrqIf _ _ _)).trans (.wake _)

theorem EventStep.skipToEvent (s : State) : EventStep s s.skipToEvent := by
  unfold State.skipToEvent; split
  · exact .of_dma (.of_eq rfl rfl rfl rfl rfl rfl (Nat.le_max_left _ _) rfl rfl rfl rfl rfl) rfl
  · exact .refl s

end Sys2Proof.Machine
end

