-- ==== Sys2Proof/Laws/Flags.lean ====
section
/-! SUPPORT. The flag computations against exact integer arithmetic (R26). -/

namespace Sys2Proof.Machine

theorem addWithCarry_res (x y : Word) (c : Bool) : (addWithCarry x y c).res = x + y + (BitVec.ofBool c).setWidth 32 := by
  apply BitVec.eq_of_toNat_eq
  cases c <;> simp [addWithCarry]

/-- The carry is a sum of 2^32 or more. -/
theorem addWithCarry_c (x y : Word) (c : Bool) :
    (addWithCarry x y c).c = decide (2 ^ 32 ≤ x.toNat + y.toNat + c.toNat) := by
  cases c <;> simp only [addWithCarry, BitVec.msb_eq_decide] <;> simp <;> omega

/-- The overflow is a signed sum outside 32 bits. -/
theorem addWithCarry_v (x y : Word) (c : Bool) :
    (addWithCarry x y c).v = (decide (x.toInt + y.toInt + c.toNat < -2 ^ 31) ||
      decide (2 ^ 31 ≤ x.toInt + y.toInt + (c.toNat : Int))) := by
  have hr : (addWithCarry x y c).res.toNat = (x.toNat + y.toNat + c.toNat) % 2 ^ 32 := by
    rw [addWithCarry_res]; cases c <;> simp
  have hv : (addWithCarry x y c).v = (x.msb == y.msb && (addWithCarry x y c).res.msb != x.msb) := rfl
  rw [hv]
  have hx := x.isLt
  have hy := y.isLt
  have hc : c.toNat ≤ 1 := by cases c <;> simp
  simp only [BitVec.msb_eq_decide, hr, BitVec.toInt_eq_toNat_cond]
  rw [Bool.eq_iff_iff]
  simp only [Bool.and_eq_true, beq_iff_eq, bne_iff_ne, ne_eq, decide_eq_decide, Bool.or_eq_true, decide_eq_true_eq]
  split <;> split <;> omega

theorem toNat_not (y : Word) : (~~~y).toNat = 2 ^ 32 - 1 - y.toNat := by simp [BitVec.toNat_not]

theorem subtractCarry_res (x y : Word) (c : Bool) :
    (subtractCarry x y c).res = x - y - (BitVec.ofBool (!c)).setWidth 32 := by
  rw [subtractCarry, addWithCarry_res]
  apply BitVec.eq_of_toNat_eq
  have hx := x.isLt
  have hy := y.isLt
  cases c <;> simp [BitVec.toNat_sub] <;> omega

theorem subtract_res (x y : Word) : (subtract x y).res = x - y := by
  have := subtractCarry_res x y true
  simpa [subtract, subtractCarry] using this

/-- Carry is no borrow. -/
theorem subtractCarry_c (x y : Word) (c : Bool) :
    (subtractCarry x y c).c = decide (y.toNat + (!c).toNat ≤ x.toNat) := by
  have hy := y.isLt
  rw [subtractCarry, addWithCarry_c, toNat_not]
  cases c <;> simp <;> omega

theorem subtract_c (x y : Word) : (subtract x y).c = decide (y.toNat ≤ x.toNat) := by
  have := subtractCarry_c x y true
  simpa [subtract, subtractCarry] using this

theorem toInt_not (y : Word) : (~~~y).toInt = -y.toInt - 1 := by
  have hy := y.isLt
  simp only [BitVec.toInt_eq_toNat_cond, toNat_not]
  split <;> split <;> omega

/-- The overflow is a signed difference outside 32 bits. -/
theorem subtractCarry_v (x y : Word) (c : Bool) :
    (subtractCarry x y c).v = (decide (x.toInt - y.toInt - ((!c).toNat : Int) < -2 ^ 31) ||
      decide (2 ^ 31 ≤ x.toInt - y.toInt - ((!c).toNat : Int))) := by
  rw [subtractCarry, addWithCarry_v, toInt_not]
  cases c <;> simp <;> congr 2 <;> apply propext <;> omega

theorem subtract_v (x y : Word) :
    (subtract x y).v = (decide (x.toInt - y.toInt < -2 ^ 31) || decide (2 ^ 31 ≤ x.toInt - y.toInt)) := by
  have := subtractCarry_v x y true
  simpa [subtract, subtractCarry] using this

/-! ### The flags of Safety -/

theorem setArith_sum (p : Psr) (x y : Word) (c : Bool) : p.setArith (addWithCarry x y c) = sumFlags p x y c := by
  have hr : (addWithCarry x y c).res.toNat = (x.toNat + y.toNat + c.toNat) % 2 ^ 32 := by
    rw [addWithCarry_res]; cases c <;> simp
  simp only [Psr.setArith, Psr.setNZ, sumFlags, addWithCarry_c, addWithCarry_v, Psr.mk.injEq, and_true, true_and]
  refine ⟨?_, ?_, ?_⟩
  · simp only [BitVec.msb_eq_decide, hr]
  · rw [Bool.eq_iff_iff]; simp only [beq_iff_eq, decide_eq_true_eq, ← BitVec.toNat_inj, hr]; simp
  · rw [Bool.eq_iff_iff]; simp only [Bool.or_eq_true, decide_eq_true_eq]; omega

theorem setArith_diff (p : Psr) (x y : Word) (c : Bool) : p.setArith (subtractCarry x y c) = diffFlags p x y (!c) := by
  have hx := x.isLt
  have hy := y.isLt
  simp only [Psr.setArith, Psr.setNZ, diffFlags, subtractCarry_res, subtractCarry_c, subtractCarry_v, Psr.mk.injEq,
    and_true, true_and]
  refine ⟨?_, ?_⟩
  · rw [Bool.eq_iff_iff]
    simp only [beq_iff_eq, decide_eq_true_eq, ← BitVec.toNat_inj]
    cases c <;> simp [BitVec.toNat_sub] <;> omega
  · rw [Bool.eq_iff_iff]; simp only [Bool.or_eq_true, decide_eq_true_eq]; omega

theorem setArith_sub (p : Psr) (x y : Word) : p.setArith (subtract x y) = diffFlags p x y false :=
  setArith_diff p x y true

theorem setNZ_signZero (p : Psr) (v : Word) : p.setNZ v = signZero p v := by
  simp only [Psr.setNZ, signZero, BitVec.msb_eq_decide, Psr.mk.injEq, and_true, true_and]
  rw [Bool.eq_iff_iff]; simp [← BitVec.toNat_inj]

theorem setLogical_signZero (p : Psr) (v : Word) (c : Bool) : p.setLogical v c = { signZero p v with c := c } := by
  rw [Psr.setLogical, setNZ_signZero]

end Sys2Proof.Machine
end

