-- ==== Sys2Proof/Laws/Registers.lean ====
section
/-! SUPPORT. The register view: which stored register a name is, and a register read after a register write. -/

namespace Sys2Proof.Machine

/-- Two names of one mode are one stored register only if they are one name, r15 aside. -/
theorem phys_inj (m : BitVec 5) (i j : RegNo) (hi : i ≠ 15#4) (hj : j ≠ 15#4) : phys m i = phys m j ↔ i = j := by
  have h : ∀ (m : BitVec 5) (i j : RegNo), i ≠ 15#4 → j ≠ 15#4 → (phys m i = phys m j ↔ i = j) := by decide +kernel
  exact h m i j hi hj

/-- r0 to r7 are one register in every mode (R57). -/
theorem phys_low (m : BitVec 5) (r : LowReg) : phys m r.up = Fin.ofNat 30 r.toNat := by
  have h : ∀ (m : BitVec 5) (r : LowReg), phys m r.up = Fin.ofNat 30 r.toNat := by decide +kernel
  exact h m r

/-- A low register is not r15. -/
theorem up_ne_pc (r : LowReg) : r.up ≠ 15#4 := by
  have h : ∀ r : LowReg, r.up ≠ 15#4 := by decide
  exact h r

theorem up_inj (r q : LowReg) : r.up = q.up ↔ r = q := by
  have h : ∀ r q : LowReg, r.up = q.up ↔ r = q := by decide
  exact h r q

/-- The stored registers after a register write. -/
theorem State.setRegOf_gpr (s : State) (m : BitVec 5) (i : RegNo) (v : Word) (hi : i ≠ 15#4) :
    (s.setRegOf m i v).cpu.gpr = s.cpu.gpr.set (phys m i).val v (phys m i).isLt := by
  unfold State.setRegOf; rw [if_neg hi]

theorem State.setRegOf_pc (s : State) (m : BitVec 5) (v : Word) : s.setRegOf m 15#4 v = s := by simp [State.setRegOf]

theorem get_set (g : Vector Word 30) (k j : Fin 30) (v : Word) :
    (g.set k.val v k.isLt).get j = if j = k then v else g.get j := by
  show (g.set k.val v k.isLt)[j.val] = if j = k then v else g[j.val]
  simp only [Vector.getElem_set, Fin.ext_iff, eq_comm]

/-- A stored register after a register write. -/
theorem State.get_setRegOf (s : State) (m : BitVec 5) (i : RegNo) (v : Word) (j : Fin 30) (hi : i ≠ 15#4) :
    (s.setRegOf m i v).cpu.gpr.get j = if j = phys m i then v else s.cpu.gpr.get j := by
  rw [State.setRegOf_gpr s m i v hi, get_set]

/-- A written mark after a register write (R91). -/
theorem State.written_setRegOf (s : State) (m : BitVec 5) (i : RegNo) (v : Word) (j : Fin 30) (hi : i ≠ 15#4) :
    (s.setRegOf m i v).cpu.written.get j = (j == phys m i || s.cpu.written.get j) := by
  unfold State.setRegOf; rw [if_neg hi]
  show (s.cpu.written.set (phys m i).val true (phys m i).isLt)[j.val] = (j == phys m i || s.cpu.written[j.val])
  rw [Vector.getElem_set]
  by_cases h : j = phys m i
  · simp [h]
  · rw [if_neg (fun e => h (Fin.ext e.symm)), beq_eq_false_iff_ne.mpr h, Bool.false_or]

/-- A named register after a register write. -/
theorem State.regOf_setRegOf (s : State) (m m' : BitVec 5) (i j : RegNo) (v : Word) (hi : i ≠ 15#4) :
    (s.setRegOf m i v).regOf m' j = if phys m' j = phys m i then v else s.regOf m' j :=
  State.get_setRegOf s m i v _ hi

@[simp] theorem State.setReg_def (s : State) (i : RegNo) (v : Word) : s.setReg i v = s.setRegOf s.cpu.cpsr.mode i v := rfl

theorem State.reg_of_ne (s : State) (a : Word) (i : RegNo) (h : i ≠ 15#4) : s.reg a i = s.regOf s.cpu.cpsr.mode i := by
  simp [State.reg, h]

/-- What a register read depends on. -/
theorem State.reg_congr (s t : State) (a : Word) (i : RegNo) (h : t.cpu = s.cpu) : t.reg a i = s.reg a i := by
  simp [State.reg, State.regOf, h]

/-- A low register reads the same whatever r15 would read. -/
theorem State.low_eq (s : State) (r : LowReg) : s.low r = s.cpu.gpr.get (Fin.ofNat 30 r.toNat) := by
  simp only [State.low, State.reg_of_ne _ _ _ (up_ne_pc r), State.regOf, phys_low]

theorem State.setSpsrOf_spsr (s : State) (m : BitVec 5) (p : Psr) (k : Fin 5) (h : spsrIndex m = some k) :
    (s.setSpsrOf m p).cpu.spsr = s.cpu.spsr.set k.val p k.isLt := by
  simp [State.setSpsrOf, h]

theorem State.setSpsrOf_spsrWritten (s : State) (m : BitVec 5) (p : Psr) (k : Fin 5) (h : spsrIndex m = some k) :
    (s.setSpsrOf m p).cpu.spsrWritten = s.cpu.spsrWritten.set k.val true k.isLt := by
  simp [State.setSpsrOf, h]

theorem State.setSpsrOf_none (s : State) (m : BitVec 5) (p : Psr) (h : spsrIndex m = none) : s.setSpsrOf m p = s := by
  simp [State.setSpsrOf, h]

end Sys2Proof.Machine
end

