-- ==== Sys2Proof/Laws/Store.lean ====
section
/-! SUPPORT. Stores that memory alone takes (`State.plainStore`): they complete, and change exactly their cells. -/

namespace Sys2Proof.Machine

theorem slot_align (w : Width) (a : Word) : slot (w.align a) = slot a := by
  unfold slot
  have h : ∀ m : Word, m.extractLsb' 24 8 = 0xFF#8 → (a &&& m).extractLsb' 24 8 = a.extractLsb' 24 8 := by
    intro m hm
    rw [BitVec.extractLsb'_and, hm]; exact BitVec.and_allOnes
  cases w
  · rfl
  · simp only [Width.align]; rw [h _ (by decide)]
  · simp only [Width.align]; rw [h _ (by decide)]

theorem region_align (s : State) (w : Width) (a : Word) : s.region (w.align a) = s.region a := by
  simp only [State.region, slot_align]

/-- An aligned address is its own aligned address (R162). -/
theorem Width.align_of_aligned (a : Word) (w : Width) (h : a.toNat % w.bytes = 0) : w.align a = a := by
  cases w
  · rfl
  · simp only [Width.align, Width.bytes] at *
    have h0 : a.getLsbD 0 = false := by simp [BitVec.getLsbD, Nat.testBit_zero, h]
    rw [show 0xFFFFFFFE#32 = ~~~1#32 from rfl]
    ext i hi
    rcases i with _ | i
    · rw [← BitVec.getLsbD_eq_getElem, ← BitVec.getLsbD_eq_getElem, BitVec.getLsbD_and, h0]; rfl
    · have h3 : (1#32).getLsbD (i+1) = false := by simp
      rw [← BitVec.getLsbD_eq_getElem, ← BitVec.getLsbD_eq_getElem, BitVec.getLsbD_and, BitVec.getLsbD_not, h3]
      simp; omega
  · simp only [Width.align, Width.bytes] at *
    have h0 : a.getLsbD 0 = false := by simp [BitVec.getLsbD, Nat.testBit_zero]; omega
    have h1 : a.getLsbD 1 = false := by
      simp [BitVec.getLsbD, Nat.testBit, Nat.shiftRight_eq_div_pow]; omega
    rw [show 0xFFFFFFFC#32 = ~~~3#32 from rfl]
    ext i hi
    rcases i with _ | _ | i
    · rw [← BitVec.getLsbD_eq_getElem, ← BitVec.getLsbD_eq_getElem, BitVec.getLsbD_and, h0]; rfl
    · rw [← BitVec.getLsbD_eq_getElem, ← BitVec.getLsbD_eq_getElem, BitVec.getLsbD_and, h1]; rfl
    · have h3 : (3#32).getLsbD (i+2) = false := by
        simp only [BitVec.getLsbD, BitVec.toNat_ofNat];
        apply Nat.testBit_lt_two_pow
        have : 2^2 ≤ 2^(i+2) := Nat.pow_le_pow_right (by omega) (by omega)
        omega
      rw [← BitVec.getLsbD_eq_getElem, ← BitVec.getLsbD_eq_getElem, BitVec.getLsbD_and, BitVec.getLsbD_not, h3]
      simp; omega

theorem lookup_cons_getD (k : Nat) (b : Byte) (cells : List (Nat × Byte)) (j : Nat) (d : Byte) :
    (((k, b) :: cells).lookup j).getD d = if j = k then b else (cells.lookup j).getD d := by
  by_cases h : j = k
  · simp [h]
  · rw [List.lookup, beq_eq_false_iff_ne.mpr h, if_neg h]

/-- A little-endian list of cells is a write of memory. -/
theorem byte_write_cells (m : Memory) (k : Nat) (v : Word) (w : Width) (j : Nat) :
    (m.write k v w).byte j = ((littleEndian k v w).lookup j).getD (m.byte j) := by
  cases w <;> simp only [Memory.write, Memory.byte_set, littleEndian, byteOf, List.lookup] <;> grind

theorem byte_twice (b : Byte) : replicateByte b .half = (b ++ b).setWidth 32 := rfl

theorem byteOf_zero (v : Word) : byteOf v 0 = v.setWidth 8 := by
  ext i hi; simp [byteOf]

/-- What a plain store to memory does to memory. -/
structure StoreStep (s t : State) (cells : List (Nat × Byte)) : Prop where
  bytes : WroteBytes s t cells
  rest : t = { s with cycles := t.cycles, mem := t.mem, icache := t.icache }

theorem StoreStep.write (s : State) (k : Nat) (v : Word) (w : Width) :
    StoreStep s (s.setMem (s.mem.write k v w)) (littleEndian k v w) :=
  ⟨fun j => byte_write_cells s.mem k v w j, rfl⟩

theorem StoreStep.none (s : State) : StoreStep s s [] := ⟨fun _ => rfl, rfl⟩

/-- R.write of a plain store. -/
theorem State.writeRaw_plain (s : State) (a : Word) (w : Width) (v : Word) (h : s.plainStore a w = true) :
    ∃ t, s.writeRaw (w.align a) w v = .ok t ∧ StoreStep s t (s.storedCells a w v) ∧ t.cycles = s.cycles := by
  simp only [State.plainStore, Bool.and_eq_true] at h
  obtain ⟨-, h⟩ := h
  unfold State.writeRaw State.storedCells
  rw [region_align]
  have rom : s.isEepromPort (w.align a) = false → (slot a == 0x08 && inGpioWindow (romOffset (w.align a))) = false →
      s.writeRom (w.align a) v w = s := by
    intro h1 h2
    unfold State.writeRom
    rw [h1, if_neg (by simp), if_neg]
    rw [slot_align]; simpa using h2
  generalize s.region a = r at h
  cases r <;> dsimp only at h ⊢
  case bios => exact ⟨s, rfl, .none s, rfl⟩
  case unmapped => exact ⟨s, rfl, .none s, rfl⟩
  case io => cases h
  case rom0 | rom1 | rom2 =>
    simp only [Bool.and_eq_true, Bool.not_eq_true'] at h
    rw [rom h.1 h.2]; exact ⟨s, rfl, .none s, rfl⟩
  case ewram => exact ⟨_, rfl, .write s _ v w, rfl⟩
  case iwram => exact ⟨_, rfl, .write s _ v w, rfl⟩
  case save =>
    simp only [Bool.and_eq_true, beq_iff_eq] at h
    obtain ⟨rfl, hb⟩ := h
    simp only [State.writeSave, hb]
    exact ⟨_, rfl, .write s _ v .byte, rfl⟩
  case palette =>
    cases w
    · refine ⟨_, rfl, ?_, rfl⟩
      simp only [State.writePalette, State.writeTwice, byteOf_zero, byte_twice]
      exact .write s _ _ .half
    · exact ⟨_, rfl, .write s _ v .half, rfl⟩
    · exact ⟨_, rfl, .write s _ v .word, rfl⟩
  case vram =>
    cases w
    · refine ⟨_, rfl, ?_, ?_⟩
      · by_cases hb : vramOffset a < s.ppu.bgArea
        all_goals simp only [State.writeVram, Width.align, hb, if_true, if_false]
        · simp only [State.writeTwice, byteOf_zero, byte_twice]; exact .write s _ _ .half
        · exact .none s
      · simp only [State.writeVram]; split <;> rfl
    · exact ⟨_, rfl, .write s _ v .half, rfl⟩
    · exact ⟨_, rfl, .write s _ v .word, rfl⟩
  case oam =>
    cases w
    · exact ⟨s, rfl, .none s, rfl⟩
    · exact ⟨_, rfl, .write s _ v .half, rfl⟩
    · exact ⟨_, rfl, .write s _ v .word, rfl⟩

/-- A plain store completes (R171): it changes exactly its cells, the counter and the instruction cache. -/
theorem State.memWrite_plain (s : State) (a : Word) (w : Width) (v : Word) (seq : Bool) (h : s.plainStore a w = true)
    (hd : s.dma.held = []) :
    ∃ t, s.memWrite a w v seq = .ok t ∧ StoreStep s t (s.storedCells a w v) ∧ t.cycles = s.cycles + s.cost a w seq := by
  obtain ⟨t, ht, hs, hc⟩ := State.writeRaw_plain ((s.billAccess a w seq).invalidatePages (w.align a)) a w v h
  have hr : t = { s with cycles := t.cycles, mem := t.mem, icache := t.icache } := by rw [hs.rest]; rfl
  refine ⟨t, ?_, ⟨hs.bytes, hr⟩, hc⟩
  have hhit : s.storeWindow.hit (w.align a) w.bytes = false := by
    simp only [State.plainStore, Bool.and_eq_true, Bool.not_eq_true'] at h; exact h.1
  unfold State.memWrite State.busWrite
  rw [hhit, if_neg (by simp), ht]
  exact State.drainDma_nil t _ _ (by rw [hr]; exact hd)

/-- The hazard of R205: the store faults. -/
theorem State.memWrite_hazard (s : State) (a : Word) (w : Width) (v : Word) (seq : Bool)
    (h : s.storeWindow.hit (w.align a) w.bytes = true) :
    s.memWrite a w v seq = .error ((s.billAccess a w seq).raise (.selfModifyHazard s.cpu.pc a)) := by
  unfold State.memWrite State.busWrite; rw [if_pos h]; rfl

end Sys2Proof.Machine
end

