-- ==== Sys2Proof/Laws/Exec.lean ====
section
/-! SUPPORT. The effects of the shared ends of the meanings, in the terms of Safety. -/

namespace Sys2Proof.Machine

/-- An ARM instruction whose condition passes runs its body (R356). -/
theorem armCond_pass {c : Cond} {s : State} (h : condHolds c s.cpu.cpsr = true) (b : Except Fault State) :
    armCond c s b = answer b := by simp [armCond, h]

/-- An ARM instruction whose condition fails only advances (R357). -/
theorem armCond_fail {c : Cond} {s : State} (h : condHolds c s.cpu.cpsr = false) (b : Except Fault State) :
    armCond c s b = .next s.skip := by simp [armCond, h]

theorem completes_ok {s : State} {P : State → Prop} (h : P s) : Completes (answer (.ok s)) P := ⟨s, rfl, h⟩

theorem completes_next {s : State} {P : State → Prop} (h : P s) : Completes (.next s) P := ⟨s, rfl, h⟩

/-! ### Registers written -/

theorem Wrote.nil (s t : State) (h : t.cpu.gpr = s.cpu.gpr) (hw : t.cpu.written = s.cpu.written) : Wrote s t [] :=
  fun k => by simp [h, hw]

theorem Wrote.setRegOf (s : State) (m : BitVec 5) (i : RegNo) (v : Word) (hi : i ≠ 15#4) :
    Wrote s (s.setRegOf m i v) [(phys m i, v)] := by
  intro k
  rw [State.get_setRegOf s m i v k hi, State.written_setRegOf s m i v k hi]
  by_cases h : k = phys m i
  · simp [h]
  · simp [h, List.lookup, beq_eq_false_iff_ne.mpr h]

/-- A later register write comes first in the list. -/
theorem Wrote.cons {s t : State} {ds : List (Fin 30 × Word)} (h : Wrote s t ds) (m : BitVec 5) (i : RegNo) (v : Word)
    (hi : i ≠ 15#4) : Wrote s (t.setRegOf m i v) ((phys m i, v) :: ds) := by
  intro k
  rw [State.get_setRegOf t m i v k hi, State.written_setRegOf t m i v k hi]
  by_cases hk : k = phys m i
  · simp [hk]
  · rw [if_neg hk, List.lookup, beq_eq_false_iff_ne.mpr hk]; simpa [hk] using h k

theorem Wrote.of_gpr {s t u : State} {ds : List (Fin 30 × Word)} (h : Wrote s t ds) (hg : u.cpu.gpr = t.cpu.gpr)
    (hw : u.cpu.written = t.cpu.written) : Wrote s u ds := fun k => by rw [hg, hw]; exact h k

/-! ### The ends of register instructions -/

/-- Cycles, status, program counter: no general register written. -/
theorem Effect.status (s : State) (k : Nat) (p : Psr) (a : Word) :
    Effect s (((s.bill k).setCpsr p).setPc a) [] p a :=
  ⟨⟨.nil _ _ rfl rfl, rfl, rfl, rfl, rfl⟩, rfl, fun _ => rfl⟩

/-- Cycles, one register of the current mode, status, program counter. -/
theorem Effect.write (s : State) (k : Nat) (rd : RegNo) (v : Word) (p : Psr) (a : Word) (h : rd ≠ 15#4) :
    Effect s ((((s.bill k).setReg rd v).setCpsr p).setPc a) [(s.here rd, v)] p a := by
  refine ⟨⟨(Wrote.setRegOf s s.cpu.cpsr.mode rd v h).of_gpr ?_ ?_, rfl, rfl, ?_, ?_⟩, ?_, fun _ => ?_⟩
  all_goals simp only [State.setReg_def, State.setRegOf, if_neg h, OnlyCpu]; rfl

/-- The same without a status write. -/
theorem Effect.writeKeep (s : State) (k : Nat) (rd : RegNo) (v : Word) (a : Word) (h : rd ≠ 15#4) :
    Effect s (((s.bill k).setReg rd v).setPc a) [(s.here rd, v)] s.cpu.cpsr a := by
  refine ⟨⟨(Wrote.setRegOf s s.cpu.cpsr.mode rd v h).of_gpr ?_ ?_, ?_, rfl, ?_, ?_⟩, ?_, fun _ => ?_⟩
  all_goals simp only [State.setReg_def, State.setRegOf, if_neg h, OnlyCpu]; rfl

theorem setArith_t (p : Psr) (o : AddOut) : (p.setArith o).t = p.t := rfl
theorem setLogical_t (p : Psr) (v : Word) (c : Bool) : (p.setLogical v c).t = p.t := rfl
theorem setNZ_t (p : Psr) (v : Word) : (p.setNZ v).t = p.t := rfl

/-- DataProcessing(w) with a destination that is not r15 (R409). -/
theorem State.writeResult_reg (s : State) (i : Instr) (sf : Bool) (rd : RegNo) (op2 : Operand2) (o : AddOut)
    (hb : badShiftAmount op2 = false) (hrd : rd ≠ 15#4) :
    Completes (answer (s.writeResult i sf rd op2 o)) fun t =>
      Effect s t [(s.here rd, o.res)] (if sf then s.cpu.cpsr.setArith o else s.cpu.cpsr)
        (s.cpu.pc + codeStep s.cpu.cpsr.t) := by
  have h1 : (s.billDataProc op2).cpu = s.cpu := rfl
  have e : s.writeResult i sf rd op2 o =
      .ok ((((s.billDataProc op2).setReg rd o.res).setFlagsIf sf o).advance) := by
    simp [State.writeResult, hb, hrd]
  rw [e]
  refine completes_ok ?_
  have hbill : ∃ k, s.billDataProc op2 = s.bill k := ⟨s.cost s.prefetch (codeWidth s.cpu.cpsr.t) true +
    (if isRegShift op2 then 1 else 0), by simp [State.billDataProc, State.billCode, State.billAccess, State.bill, Nat.add_assoc]⟩
  obtain ⟨k, hk⟩ := hbill
  rw [hk]
  unfold State.advance State.setFlagsIf
  cases sf
  · simp only [Bool.false_eq_true, if_false, State.setReg_def, State.setRegOf_cpu_pc, State.setRegOf_cpu_cpsr,
      State.bill_cpu]
    exact Effect.writeKeep s k rd o.res _ hrd
  · simp only [if_true, State.setReg_def, State.setRegOf_cpu_pc, State.setRegOf_cpu_cpsr, State.bill_cpu,
      State.setCpsr_cpu, setArith_t]
    exact Effect.write s k rd o.res _ _ hrd

/-- The comparisons (R409). -/
theorem State.testResult_ok (s : State) (i : Instr) (op2 : Operand2) (o : AddOut) (hb : badShiftAmount op2 = false) :
    Completes (answer (s.testResult i op2 o)) fun t =>
      Effect s t [] (s.cpu.cpsr.setArith o) (s.cpu.pc + codeStep s.cpu.cpsr.t) := by
  have e : s.testResult i op2 o = .ok (((s.billDataProc op2).setFlagsIf true o).advance) := by
    simp [State.testResult, hb]
  rw [e]
  refine completes_ok ?_
  exact Effect.status s (s.cost s.prefetch (codeWidth s.cpu.cpsr.t) true + (if isRegShift op2 then 1 else 0)) _ _ |>
    fun h => by
      have : ((s.billDataProc op2).setFlagsIf true o).advance = ((s.bill (s.cost s.prefetch (codeWidth s.cpu.cpsr.t)
          true + (if isRegShift op2 then 1 else 0))).setCpsr (s.cpu.cpsr.setArith o)).setPc (s.cpu.pc + codeStep s.cpu.cpsr.t) := by
        simp [State.billDataProc, State.billCode, State.billAccess, State.bill, Nat.add_assoc, State.advance,
          State.setFlagsIf, State.setCpsr, State.setPc, setArith_t]
      rw [this]; exact h

end Sys2Proof.Machine
end

