-- ==== Sys2Proof/Laws/PerInstr.lean ====
section
/-! SUPPORT. A statement per instruction about its encoding: an instruction with a condition is an ARM word whose bits
31:28 are that condition (30_encoding.md R253), every other one a Thumb halfword; one lemma per constructor. -/

namespace Sys2Proof.Laws.ConditionField

/-- Bits 31:28 of the code are the condition field if the instruction has one; else the code is a halfword. -/
def Statement (i : Instr) : Prop :=
  match encode i, i.cond with
  | .arm w, some c => w.extractLsb' 28 4 = c.bits
  | .thumb _, none => True
  | _, _ => False

/-- A field above the last part of a word is a field of the rest. -/
theorem field_append {n m : Nat} (x : BitVec n) (y : BitVec m) (j l : Nat) :
    (x ++ y).extractLsb' (j + m) l = x.extractLsb' j l := by
  ext i hi
  simp [BitVec.getLsbD_append]
  grind

theorem field_whole (x : BitVec 4) : x.extractLsb' 0 4 = x := by ext i hi; simp

theorem bx (c : Cond) (rm : RegNo) : Statement (.bx c rm) := by
  show BitVec.extractLsb' 28 4 _ = _
  repeat' refine Eq.trans (field_append _ _ _ _) ?_
  exact field_whole _
theorem mul (c : Cond) (s : Bool) (rd ignored rs rm : RegNo) : Statement (.mul c s rd ignored rs rm) := by
  show BitVec.extractLsb' 28 4 _ = _
  repeat' refine Eq.trans (field_append _ _ _ _) ?_
  exact field_whole _
theorem mla (c : Cond) (s : Bool) (rd rn rs rm : RegNo) : Statement (.mla c s rd rn rs rm) := by
  show BitVec.extractLsb' 28 4 _ = _
  repeat' refine Eq.trans (field_append _ _ _ _) ?_
  exact field_whole _
theorem umull (c : Cond) (s : Bool) (rdHi rdLo rs rm : RegNo) : Statement (.umull c s rdHi rdLo rs rm) := by
  show BitVec.extractLsb' 28 4 _ = _
  repeat' refine Eq.trans (field_append _ _ _ _) ?_
  exact field_whole _
theorem umlal (c : Cond) (s : Bool) (rdHi rdLo rs rm : RegNo) : Statement (.umlal c s rdHi rdLo rs rm) := by
  show BitVec.extractLsb' 28 4 _ = _
  repeat' refine Eq.trans (field_append _ _ _ _) ?_
  exact field_whole _
theorem smull (c : Cond) (s : Bool) (rdHi rdLo rs rm : RegNo) : Statement (.smull c s rdHi rdLo rs rm) := by
  show BitVec.extractLsb' 28 4 _ = _
  repeat' refine Eq.trans (field_append _ _ _ _) ?_
  exact field_whole _
theorem smlal (c : Cond) (s : Bool) (rdHi rdLo rs rm : RegNo) : Statement (.smlal c s rdHi rdLo rs rm) := by
  show BitVec.extractLsb' 28 4 _ = _
  repeat' refine Eq.trans (field_append _ _ _ _) ?_
  exact field_whole _
theorem swp (c : Cond) (rn rd rm : RegNo) : Statement (.swp c rn rd rm) := by
  show BitVec.extractLsb' 28 4 _ = _
  repeat' refine Eq.trans (field_append _ _ _ _) ?_
  exact field_whole _
theorem swpb (c : Cond) (rn rd rm : RegNo) : Statement (.swpb c rn rd rm) := by
  show BitVec.extractLsb' 28 4 _ = _
  repeat' refine Eq.trans (field_append _ _ _ _) ?_
  exact field_whole _
theorem strhReg (c : Cond) (p u w : Bool) (rn rd rm : RegNo) : Statement (.strhReg c p u w rn rd rm) := by
  show BitVec.extractLsb' 28 4 _ = _
  repeat' refine Eq.trans (field_append _ _ _ _) ?_
  exact field_whole _
theorem strhImm (c : Cond) (p u w : Bool) (rn rd : RegNo) (off : BitVec 8) : Statement (.strhImm c p u w rn rd off) := by
  show BitVec.extractLsb' 28 4 _ = _
  repeat' refine Eq.trans (field_append _ _ _ _) ?_
  exact field_whole _
theorem ldrhReg (c : Cond) (p u w : Bool) (rn rd rm : RegNo) : Statement (.ldrhReg c p u w rn rd rm) := by
  show BitVec.extractLsb' 28 4 _ = _
  repeat' refine Eq.trans (field_append _ _ _ _) ?_
  exact field_whole _
theorem ldrhImm (c : Cond) (p u w : Bool) (rn rd : RegNo) (off : BitVec 8) : Statement (.ldrhImm c p u w rn rd off) := by
  show BitVec.extractLsb' 28 4 _ = _
  repeat' refine Eq.trans (field_append _ _ _ _) ?_
  exact field_whole _
theorem ldrsbReg (c : Cond) (p u w : Bool) (rn rd rm : RegNo) : Statement (.ldrsbReg c p u w rn rd rm) := by
  show BitVec.extractLsb' 28 4 _ = _
  repeat' refine Eq.trans (field_append _ _ _ _) ?_
  exact field_whole _
theorem ldrsbImm (c : Cond) (p u w : Bool) (rn rd : RegNo) (off : BitVec 8) : Statement (.ldrsbImm c p u w rn rd off) := by
  show BitVec.extractLsb' 28 4 _ = _
  repeat' refine Eq.trans (field_append _ _ _ _) ?_
  exact field_whole _
theorem ldrshReg (c : Cond) (p u w : Bool) (rn rd rm : RegNo) : Statement (.ldrshReg c p u w rn rd rm) := by
  show BitVec.extractLsb' 28 4 _ = _
  repeat' refine Eq.trans (field_append _ _ _ _) ?_
  exact field_whole _
theorem ldrshImm (c : Cond) (p u w : Bool) (rn rd : RegNo) (off : BitVec 8) : Statement (.ldrshImm c p u w rn rd off) := by
  show BitVec.extractLsb' 28 4 _ = _
  repeat' refine Eq.trans (field_append _ _ _ _) ?_
  exact field_whole _
theorem mrs (c : Cond) (r : Bool) (rd : RegNo) : Statement (.mrs c r rd) := by
  show BitVec.extractLsb' 28 4 _ = _
  repeat' refine Eq.trans (field_append _ _ _ _) ?_
  exact field_whole _
theorem msrCpsrReg (c : Cond) (mask : BitVec 4) (rm : RegNo) : Statement (.msrCpsrReg c mask rm) := by
  show BitVec.extractLsb' 28 4 _ = _
  repeat' refine Eq.trans (field_append _ _ _ _) ?_
  exact field_whole _
theorem msrCpsrImm (c : Cond) (mask rot : BitVec 4) (imm8 : BitVec 8) : Statement (.msrCpsrImm c mask rot imm8) := by
  show BitVec.extractLsb' 28 4 _ = _
  repeat' refine Eq.trans (field_append _ _ _ _) ?_
  exact field_whole _
theorem msrSpsrReg (c : Cond) (mask : BitVec 4) (rm : RegNo) : Statement (.msrSpsrReg c mask rm) := by
  show BitVec.extractLsb' 28 4 _ = _
  repeat' refine Eq.trans (field_append _ _ _ _) ?_
  exact field_whole _
theorem msrSpsrImm (c : Cond) (mask rot : BitVec 4) (imm8 : BitVec 8) : Statement (.msrSpsrImm c mask rot imm8) := by
  show BitVec.extractLsb' 28 4 _ = _
  repeat' refine Eq.trans (field_append _ _ _ _) ?_
  exact field_whole _
theorem and (c : Cond) (s : Bool) (rn rd : RegNo) (op2 : Operand2) : Statement (.and c s rn rd op2) := by
  show BitVec.extractLsb' 28 4 _ = _
  repeat' refine Eq.trans (field_append _ _ _ _) ?_
  exact field_whole _
theorem eor (c : Cond) (s : Bool) (rn rd : RegNo) (op2 : Operand2) : Statement (.eor c s rn rd op2) := by
  show BitVec.extractLsb' 28 4 _ = _
  repeat' refine Eq.trans (field_append _ _ _ _) ?_
  exact field_whole _
theorem sub (c : Cond) (s : Bool) (rn rd : RegNo) (op2 : Operand2) : Statement (.sub c s rn rd op2) := by
  show BitVec.extractLsb' 28 4 _ = _
  repeat' refine Eq.trans (field_append _ _ _ _) ?_
  exact field_whole _
theorem rsb (c : Cond) (s : Bool) (rn rd : RegNo) (op2 : Operand2) : Statement (.rsb c s rn rd op2) := by
  show BitVec.extractLsb' 28 4 _ = _
  repeat' refine Eq.trans (field_append _ _ _ _) ?_
  exact field_whole _
theorem add (c : Cond) (s : Bool) (rn rd : RegNo) (op2 : Operand2) : Statement (.add c s rn rd op2) := by
  show BitVec.extractLsb' 28 4 _ = _
  repeat' refine Eq.trans (field_append _ _ _ _) ?_
  exact field_whole _
theorem adc (c : Cond) (s : Bool) (rn rd : RegNo) (op2 : Operand2) : Statement (.adc c s rn rd op2) := by
  show BitVec.extractLsb' 28 4 _ = _
  repeat' refine Eq.trans (field_append _ _ _ _) ?_
  exact field_whole _
theorem sbc (c : Cond) (s : Bool) (rn rd : RegNo) (op2 : Operand2) : Statement (.sbc c s rn rd op2) := by
  show BitVec.extractLsb' 28 4 _ = _
  repeat' refine Eq.trans (field_append _ _ _ _) ?_
  exact field_whole _
theorem rsc (c : Cond) (s : Bool) (rn rd : RegNo) (op2 : Operand2) : Statement (.rsc c s rn rd op2) := by
  show BitVec.extractLsb' 28 4 _ = _
  repeat' refine Eq.trans (field_append _ _ _ _) ?_
  exact field_whole _
theorem tst (c : Cond) (rn ignored : RegNo) (op2 : Operand2) : Statement (.tst c rn ignored op2) := by
  show BitVec.extractLsb' 28 4 _ = _
  repeat' refine Eq.trans (field_append _ _ _ _) ?_
  exact field_whole _
theorem teq (c : Cond) (rn ignored : RegNo) (op2 : Operand2) : Statement (.teq c rn ignored op2) := by
  show BitVec.extractLsb' 28 4 _ = _
  repeat' refine Eq.trans (field_append _ _ _ _) ?_
  exact field_whole _
theorem cmp (c : Cond) (rn ignored : RegNo) (op2 : Operand2) : Statement (.cmp c rn ignored op2) := by
  show BitVec.extractLsb' 28 4 _ = _
  repeat' refine Eq.trans (field_append _ _ _ _) ?_
  exact field_whole _
theorem cmn (c : Cond) (rn ignored : RegNo) (op2 : Operand2) : Statement (.cmn c rn ignored op2) := by
  show BitVec.extractLsb' 28 4 _ = _
  repeat' refine Eq.trans (field_append _ _ _ _) ?_
  exact field_whole _
theorem orr (c : Cond) (s : Bool) (rn rd : RegNo) (op2 : Operand2) : Statement (.orr c s rn rd op2) := by
  show BitVec.extractLsb' 28 4 _ = _
  repeat' refine Eq.trans (field_append _ _ _ _) ?_
  exact field_whole _
theorem mov (c : Cond) (s : Bool) (ignored rd : RegNo) (op2 : Operand2) : Statement (.mov c s ignored rd op2) := by
  show BitVec.extractLsb' 28 4 _ = _
  repeat' refine Eq.trans (field_append _ _ _ _) ?_
  exact field_whole _
theorem bic (c : Cond) (s : Bool) (rn rd : RegNo) (op2 : Operand2) : Statement (.bic c s rn rd op2) := by
  show BitVec.extractLsb' 28 4 _ = _
  repeat' refine Eq.trans (field_append _ _ _ _) ?_
  exact field_whole _
theorem mvn (c : Cond) (s : Bool) (ignored rd : RegNo) (op2 : Operand2) : Statement (.mvn c s ignored rd op2) := by
  show BitVec.extractLsb' 28 4 _ = _
  repeat' refine Eq.trans (field_append _ _ _ _) ?_
  exact field_whole _
theorem str (c : Cond) (p u w : Bool) (rn rd : RegNo) (off : Offset) : Statement (.str c p u w rn rd off) := by
  show BitVec.extractLsb' 28 4 _ = _
  repeat' refine Eq.trans (field_append _ _ _ _) ?_
  exact field_whole _
theorem ldr (c : Cond) (p u w : Bool) (rn rd : RegNo) (off : Offset) : Statement (.ldr c p u w rn rd off) := by
  show BitVec.extractLsb' 28 4 _ = _
  repeat' refine Eq.trans (field_append _ _ _ _) ?_
  exact field_whole _
theorem strb (c : Cond) (p u w : Bool) (rn rd : RegNo) (off : Offset) : Statement (.strb c p u w rn rd off) := by
  show BitVec.extractLsb' 28 4 _ = _
  repeat' refine Eq.trans (field_append _ _ _ _) ?_
  exact field_whole _
theorem ldrb (c : Cond) (p u w : Bool) (rn rd : RegNo) (off : Offset) : Statement (.ldrb c p u w rn rd off) := by
  show BitVec.extractLsb' 28 4 _ = _
  repeat' refine Eq.trans (field_append _ _ _ _) ?_
  exact field_whole _
theorem strt (c : Cond) (u : Bool) (rn rd : RegNo) (off : Offset) : Statement (.strt c u rn rd off) := by
  show BitVec.extractLsb' 28 4 _ = _
  repeat' refine Eq.trans (field_append _ _ _ _) ?_
  exact field_whole _
theorem ldrt (c : Cond) (u : Bool) (rn rd : RegNo) (off : Offset) : Statement (.ldrt c u rn rd off) := by
  show BitVec.extractLsb' 28 4 _ = _
  repeat' refine Eq.trans (field_append _ _ _ _) ?_
  exact field_whole _
theorem strbt (c : Cond) (u : Bool) (rn rd : RegNo) (off : Offset) : Statement (.strbt c u rn rd off) := by
  show BitVec.extractLsb' 28 4 _ = _
  repeat' refine Eq.trans (field_append _ _ _ _) ?_
  exact field_whole _
theorem ldrbt (c : Cond) (u : Bool) (rn rd : RegNo) (off : Offset) : Statement (.ldrbt c u rn rd off) := by
  show BitVec.extractLsb' 28 4 _ = _
  repeat' refine Eq.trans (field_append _ _ _ _) ?_
  exact field_whole _
theorem undefinedArm (c : Cond) (hi : BitVec 20) (lo : BitVec 4) : Statement (.undefinedArm c hi lo) := by
  show BitVec.extractLsb' 28 4 _ = _
  repeat' refine Eq.trans (field_append _ _ _ _) ?_
  exact field_whole _
theorem stm (c : Cond) (p u s w : Bool) (rn : RegNo) (list : BitVec 16) : Statement (.stm c p u s w rn list) := by
  show BitVec.extractLsb' 28 4 _ = _
  repeat' refine Eq.trans (field_append _ _ _ _) ?_
  exact field_whole _
theorem ldm (c : Cond) (p u s w : Bool) (rn : RegNo) (list : BitVec 16) : Statement (.ldm c p u s w rn list) := by
  show BitVec.extractLsb' 28 4 _ = _
  repeat' refine Eq.trans (field_append _ _ _ _) ?_
  exact field_whole _
theorem b (c : Cond) (off : BitVec 24) : Statement (.b c off) := by
  show BitVec.extractLsb' 28 4 _ = _
  repeat' refine Eq.trans (field_append _ _ _ _) ?_
  exact field_whole _
theorem bl (c : Cond) (off : BitVec 24) : Statement (.bl c off) := by
  show BitVec.extractLsb' 28 4 _ = _
  repeat' refine Eq.trans (field_append _ _ _ _) ?_
  exact field_whole _
theorem ldcStc (c : Cond) (rest : BitVec 25) : Statement (.ldcStc c rest) := by
  show BitVec.extractLsb' 28 4 _ = _
  repeat' refine Eq.trans (field_append _ _ _ _) ?_
  exact field_whole _
theorem cdp (c : Cond) (hi : BitVec 19) (lo : BitVec 4) : Statement (.cdp c hi lo) := by
  show BitVec.extractLsb' 28 4 _ = _
  repeat' refine Eq.trans (field_append _ _ _ _) ?_
  exact field_whole _
theorem mcrMrc (c : Cond) (hi : BitVec 19) (lo : BitVec 4) : Statement (.mcrMrc c hi lo) := by
  show BitVec.extractLsb' 28 4 _ = _
  repeat' refine Eq.trans (field_append _ _ _ _) ?_
  exact field_whole _
theorem swi (c : Cond) (comment : BitVec 24) : Statement (.swi c comment) := by
  show BitVec.extractLsb' 28 4 _ = _
  repeat' refine Eq.trans (field_append _ _ _ _) ?_
  exact field_whole _
theorem tLslImm (off : BitVec 5) (rs rd : LowReg) : Statement (.tLslImm off rs rd) := trivial
theorem tLsrImm (off : BitVec 5) (rs rd : LowReg) : Statement (.tLsrImm off rs rd) := trivial
theorem tAsrImm (off : BitVec 5) (rs rd : LowReg) : Statement (.tAsrImm off rs rd) := trivial
theorem tAddReg (rn rs rd : LowReg) : Statement (.tAddReg rn rs rd) := trivial
theorem tSubReg (rn rs rd : LowReg) : Statement (.tSubReg rn rs rd) := trivial
theorem tAddImm3 (imm3 : BitVec 3) (rs rd : LowReg) : Statement (.tAddImm3 imm3 rs rd) := trivial
theorem tSubImm3 (imm3 : BitVec 3) (rs rd : LowReg) : Statement (.tSubImm3 imm3 rs rd) := trivial
theorem tMovImm8 (rd : LowReg) (imm8 : BitVec 8) : Statement (.tMovImm8 rd imm8) := trivial
theorem tCmpImm8 (rd : LowReg) (imm8 : BitVec 8) : Statement (.tCmpImm8 rd imm8) := trivial
theorem tAddImm8 (rd : LowReg) (imm8 : BitVec 8) : Statement (.tAddImm8 rd imm8) := trivial
theorem tSubImm8 (rd : LowReg) (imm8 : BitVec 8) : Statement (.tSubImm8 rd imm8) := trivial
theorem tAnd (rs rd : LowReg) : Statement (.tAnd rs rd) := trivial
theorem tEor (rs rd : LowReg) : Statement (.tEor rs rd) := trivial
theorem tLslReg (rs rd : LowReg) : Statement (.tLslReg rs rd) := trivial
theorem tLsrReg (rs rd : LowReg) : Statement (.tLsrReg rs rd) := trivial
theorem tAsrReg (rs rd : LowReg) : Statement (.tAsrReg rs rd) := trivial
theorem tAdc (rs rd : LowReg) : Statement (.tAdc rs rd) := trivial
theorem tSbc (rs rd : LowReg) : Statement (.tSbc rs rd) := trivial
theorem tRorReg (rs rd : LowReg) : Statement (.tRorReg rs rd) := trivial
theorem tTst (rs rd : LowReg) : Statement (.tTst rs rd) := trivial
theorem tNeg (rs rd : LowReg) : Statement (.tNeg rs rd) := trivial
theorem tCmpReg (rs rd : LowReg) : Statement (.tCmpReg rs rd) := trivial
theorem tCmn (rs rd : LowReg) : Statement (.tCmn rs rd) := trivial
theorem tOrr (rs rd : LowReg) : Statement (.tOrr rs rd) := trivial
theorem tMul (rs rd : LowReg) : Statement (.tMul rs rd) := trivial
theorem tBic (rs rd : LowReg) : Statement (.tBic rs rd) := trivial
theorem tMvn (rs rd : LowReg) : Statement (.tMvn rs rd) := trivial
theorem tAddHi (rs rd : RegNo) : Statement (.tAddHi rs rd) := trivial
theorem tCmpHi (rs rd : RegNo) : Statement (.tCmpHi rs rd) := trivial
theorem tMovHi (rs rd : RegNo) : Statement (.tMovHi rs rd) := trivial
theorem tBx (rs : RegNo) : Statement (.tBx rs) := trivial
theorem tLdrPc (rd : LowReg) (imm8 : BitVec 8) : Statement (.tLdrPc rd imm8) := trivial
theorem tStrReg (ro rb rd : LowReg) : Statement (.tStrReg ro rb rd) := trivial
theorem tStrbReg (ro rb rd : LowReg) : Statement (.tStrbReg ro rb rd) := trivial
theorem tLdrReg (ro rb rd : LowReg) : Statement (.tLdrReg ro rb rd) := trivial
theorem tLdrbReg (ro rb rd : LowReg) : Statement (.tLdrbReg ro rb rd) := trivial
theorem tStrhReg (ro rb rd : LowReg) : Statement (.tStrhReg ro rb rd) := trivial
theorem tLdrhReg (ro rb rd : LowReg) : Statement (.tLdrhReg ro rb rd) := trivial
theorem tLdsbReg (ro rb rd : LowReg) : Statement (.tLdsbReg ro rb rd) := trivial
theorem tLdshReg (ro rb rd : LowReg) : Statement (.tLdshReg ro rb rd) := trivial
theorem tStrImm (off : BitVec 5) (rb rd : LowReg) : Statement (.tStrImm off rb rd) := trivial
theorem tLdrImm (off : BitVec 5) (rb rd : LowReg) : Statement (.tLdrImm off rb rd) := trivial
theorem tStrbImm (off : BitVec 5) (rb rd : LowReg) : Statement (.tStrbImm off rb rd) := trivial
theorem tLdrbImm (off : BitVec 5) (rb rd : LowReg) : Statement (.tLdrbImm off rb rd) := trivial
theorem tStrhImm (off : BitVec 5) (rb rd : LowReg) : Statement (.tStrhImm off rb rd) := trivial
theorem tLdrhImm (off : BitVec 5) (rb rd : LowReg) : Statement (.tLdrhImm off rb rd) := trivial
theorem tStrSp (rd : LowReg) (imm8 : BitVec 8) : Statement (.tStrSp rd imm8) := trivial
theorem tLdrSp (rd : LowReg) (imm8 : BitVec 8) : Statement (.tLdrSp rd imm8) := trivial
theorem tAddPc (rd : LowReg) (imm8 : BitVec 8) : Statement (.tAddPc rd imm8) := trivial
theorem tAddSp (rd : LowReg) (imm8 : BitVec 8) : Statement (.tAddSp rd imm8) := trivial
theorem tAdjustSp (s : Bool) (imm7 : BitVec 7) : Statement (.tAdjustSp s imm7) := trivial
theorem tPush (r : Bool) (list : BitVec 8) : Statement (.tPush r list) := trivial
theorem tPop (r : Bool) (list : BitVec 8) : Statement (.tPop r list) := trivial
theorem tStmia (rb : LowReg) (list : BitVec 8) : Statement (.tStmia rb list) := trivial
theorem tLdmia (rb : LowReg) (list : BitVec 8) : Statement (.tLdmia rb list) := trivial
theorem tSwi (imm8 : BitVec 8) : Statement (.tSwi imm8) := trivial
theorem tBcond (c : Cond) (off : BitVec 8) : Statement (.tBcond c off) := trivial
theorem tB (off : BitVec 11) : Statement (.tB off) := trivial
theorem tBlHigh (off : BitVec 11) : Statement (.tBlHigh off) := trivial
theorem tBlLow (off : BitVec 11) : Statement (.tBlLow off) := trivial
theorem tUndefCond (rest : BitVec 8) : Statement (.tUndefCond rest) := trivial
theorem tUndefBlx (rest : BitVec 11) : Statement (.tUndefBlx rest) := trivial
theorem tUndefB1 (rest : BitVec 8) : Statement (.tUndefB1 rest) := trivial
theorem tUndefB2 (rest : BitVec 8) : Statement (.tUndefB2 rest) := trivial
theorem tUndefB3 (rest : BitVec 8) : Statement (.tUndefB3 rest) := trivial
theorem tUndefB6 (rest : BitVec 8) : Statement (.tUndefB6 rest) := trivial
theorem tUndefB7 (rest : BitVec 8) : Statement (.tUndefB7 rest) := trivial
theorem tUndefB8 (rest : BitVec 8) : Statement (.tUndefB8 rest) := trivial
theorem tUndefB9 (rest : BitVec 8) : Statement (.tUndefB9 rest) := trivial
theorem tUndefBA (rest : BitVec 8) : Statement (.tUndefBA rest) := trivial
theorem tUndefBB (rest : BitVec 8) : Statement (.tUndefBB rest) := trivial
theorem tUndefBE (rest : BitVec 8) : Statement (.tUndefBE rest) := trivial
theorem tUndefBF (rest : BitVec 8) : Statement (.tUndefBF rest) := trivial

end Sys2Proof.Laws.ConditionField
end

