-- ==== Sys2Proof/Laws/Transfers.lean ====
section
/-! SUPPORT. Loads, stores and block transfers: what each shared operation reads, writes and keeps, and when the operand
checks fail. -/

namespace Sys2Proof.Machine

/-! ### Reads of one register -/

theorem State.ramAddress_eq (s : State) (a : Word) : s.ramAddress a = (s.region a).ram := by
  unfold State.ramAddress; cases s.region a <;> rfl

theorem lsb_eq_odd (a : Word) : a.getLsbD 0 = decide (a.toNat % 2 = 1) := by
  simp [BitVec.getLsbD, Nat.testBit_zero]

theorem rotateBytes_zero (v : Word) : rotateBytes v 0 = v := by
  ext i hi; simp [rotateBytes, BitVec.getElem_rotateRight, hi]

theorem ror_bytes (v : Word) (n : Nat) (h : n < 4) : ror v (8 * n) = rotateBytes v n := by
  unfold ror rotateBytes; congr 1; omega

/-- A read function of the machine is a read, and gives what the bus gives for a load form, which is the bytes of memory
wherever the address is in RAM. -/
structure Reads (read : Word → State → Word × State) (f : LoadForm) : Prop where
  step : ∀ a s, ∃ n, ReadStep (s.bill n) (read a s).2
  val : ∀ a s, s.ramAddress a = true → (read a s).1 = s.ramValue f a
  bus : ∀ a s, (read a s).1 = s.busValue f a

theorem Reads.word : Reads readWord .word :=
  ⟨fun a s => ⟨_, State.memRead_readStep s a .word false⟩, fun a s h => by
    rw [State.ramAddress_eq] at h
    rw [readWord, State.memRead_ram _ _ _ _ (by rw [region_align]; exact h)]
    simp only [rotateRead, region_align, State.ramValue, State.wordValue, State.wordAt, Memory.read,
      ror_bytes _ _ (Nat.mod_lt a.toNat (by omega : 0 < 4))], fun _ _ => rfl⟩

theorem Reads.byte : Reads readByte .byte :=
  ⟨fun a s => ⟨_, State.memRead_readStep s a .byte false⟩, fun a s h => by
    rw [State.ramAddress_eq] at h
    rw [readByte, State.memRead_ram _ _ _ _ (by rw [region_align]; exact h)]
    simp only [rotateRead, State.ramValue, State.byteValue, State.byteAt, Memory.read, Width.align], fun _ _ => rfl⟩

theorem Reads.half : Reads readHalf .half :=
  ⟨fun a s => ⟨_, State.memRead_readStep s a .half false⟩, fun a s h => by
    rw [State.ramAddress_eq] at h
    rw [readHalf, State.memRead_ram _ _ _ _ (by rw [region_align]; exact h)]
    simp only [rotateRead, region_align, State.ramValue, State.halfValue, State.halfAt, Memory.read, lsb_eq_odd]
    rcases Nat.mod_two_eq_zero_or_one a.toNat with h | h <;> simp only [h]
    · rw [rotateBytes_zero]; rfl
    · exact ror_bytes _ 1 (by omega), fun _ _ => rfl⟩

theorem Reads.signedByte : Reads readSignedByte .signedByte :=
  ⟨fun a s => ⟨_, State.memRead_readStep s a .byte false⟩, fun a s h => by
    have hv := Reads.byte.val a s h
    rw [readByte] at hv
    simp only [readSignedByte, hv, State.ramValue, State.byteValue, sext8, State.signedByteValue]
    simp, fun _ _ => rfl⟩

theorem Reads.signedHalf : Reads readSignedHalf .signedHalf :=
  ⟨fun a s => by
    unfold readSignedHalf; split
    · exact Reads.signedByte.step a s
    · exact ⟨_, State.memRead_readStep s a .half false⟩, fun a s h => by
    unfold readSignedHalf State.ramValue State.signedHalfValue
    rw [lsb_eq_odd]
    by_cases h1 : a.toNat % 2 = 1
    · simp only [h1, decide_true, if_true]; exact Reads.signedByte.val a s h
    · have hv := Reads.half.val a s h
      rw [readHalf] at hv
      simp only [hv, State.ramValue, State.halfValue, show a.toNat % 2 = 0 by omega, rotateBytes_zero, sext16]
      ext i hi; simp, fun a s => by
    simp only [readSignedHalf, State.busValue, lsb_eq_odd, decide_eq_true_eq]; split <;> rfl⟩

/-- A read after the code access gives what `State.loads` says. -/
theorem Reads.loads {read : Word → State → Word × State} {f : LoadForm} (h : Reads read f) (s : State) (a : Word) :
    s.loads f a (read a (s.billCode true)).1 :=
  ⟨h.bus a _, fun ha => (h.val a _ (by exact ha)).trans (by cases f <;> rfl)⟩

/-- The write-back of a base that is not r15. -/
theorem Wrote.writeBack {s t : State} (x : Access) (rn : RegNo) (hc : t.cpu = s.cpu) (hrn : x.wb = true → rn ≠ 15#4) :
    Wrote s (t.writeBack x rn) (x.baseWrite s rn) := by
  have h0 : Wrote s t [] := .nil s t (by rw [hc]) (by rw [hc])
  unfold State.writeBack Access.baseWrite; split
  · rename_i h
    have := h0.cons s.cpu.cpsr.mode rn x.ao (hrn h)
    rwa [State.setReg_def, hc]
  · exact h0

/-- The rest of the CPU after a write-back. -/
theorem State.writeBack_keeps (s : State) (x : Access) (rn : RegNo) :
    (s.writeBack x rn).cpu.cpsr = s.cpu.cpsr ∧ (s.writeBack x rn).cpu.pc = s.cpu.pc ∧
    SameSpsrs s (s.writeBack x rn) ∧ s.writeBack x rn = { s with cpu := (s.writeBack x rn).cpu } := by
  unfold State.writeBack; split
  · unfold State.setReg State.setRegOf; split <;> exact ⟨rfl, rfl, ⟨rfl, rfl⟩, rfl⟩
  · exact ⟨rfl, rfl, ⟨rfl, rfl⟩, rfl⟩

/-! ### Stores of one register -/

/-- A store of a form that passes its checks, whatever its access reaches. -/
theorem State.storeReg_through (s : State) (x : Access) (rn rd : RegNo) (w : Width) (i : Instr)
    (hrn : x.wb = true → rn ≠ 15#4) (he : exec i s = answer (s.storeReg x rn rd w)) :
    StoreGoesThrough i s x rn w (s.reg 12#32 rd) := by
  refine ⟨fun h => ?_, fun f hf => ?_, fun u hu => ?_⟩
  · rw [he]; unfold State.storeReg
    rw [State.memWrite_hazard _ _ _ _ _ (by exact h)]; rfl
  · rw [he]; unfold State.storeReg; rw [hf]; rfl
  · have hc : u.cpu = s.cpu := (EventStep.memWrite hu).device.cpu
    refine ⟨(u.writeBack x rn).advance, ?_, ?_⟩
    · rw [he]; unfold State.storeReg; rw [hu]; rfl
    obtain ⟨h1, h2, h3, h4⟩ := u.writeBack_keeps x rn
    refine ⟨⟨(Wrote.writeBack x rn hc hrn).of_gpr rfl rfl, ?_, ?_, ?_⟩, ?_⟩
    · simp only [State.advance, State.setPc_cpu, h1, hc]
    · simp only [State.advance, State.setPc_cpu, h1, h2, hc, State.following]
    · exact ⟨h3.1.trans (by rw [hc]), h3.2.trans (by rw [hc])⟩
    · simp only [State.advance, State.setPc]; rw [h4]

/-- A store that memory alone takes. -/
theorem State.storeReg_plain (s : State) (x : Access) (rn rd : RegNo) (w : Width) (i : Instr)
    (hrn : x.wb = true → rn ≠ 15#4) (he : exec i s = answer (s.storeReg x rn rd w))
    (hp : s.plainStore x.addr w = true) (hd : s.dma.held = []) : StoresTo i s x rn w (s.reg 12#32 rd) := by
  obtain ⟨u, hu, hs, -⟩ := State.memWrite_plain (s.billCode false) x.addr w (s.reg 12#32 rd) false hp hd
  obtain ⟨t, ht, hcpu, hrest⟩ := (s.storeReg_through x rn rd w i hrn he).2.2 u hu
  refine ⟨t, ht, hcpu, ?_, fun k => by rw [hrest]; exact hs.bytes k⟩
  unfold OnlyCpuMem; rw [hrest, hs.rest]; rfl

/-! ### Blocks -/

theorem mem_regList (list : BitVec 16) (i : RegNo) : i ∈ regList list ↔ list.getLsbD i.toNat = true := by
  simp only [regList, List.mem_map, List.mem_filter, List.mem_range]
  constructor
  · rintro ⟨k, ⟨hk, hl⟩, rfl⟩
    simpa [Nat.mod_eq_of_lt hk] using hl
  · intro h; exact ⟨i.toNat, ⟨i.isLt, h⟩, by simp⟩

theorem regList_nodup (list : BitVec 16) : (regList list).Nodup := by
  unfold regList
  have h : ((List.range 16).filter fun k => list.getLsbD k).Nodup := List.Pairwise.filter _ List.nodup_range
  have hlt : ∀ k ∈ (List.range 16).filter (fun k => list.getLsbD k), k < 16 := fun k hk => by
    simp only [List.mem_filter, List.mem_range] at hk; exact hk.1
  generalize (List.range 16).filter (fun k => list.getLsbD k) = l at h hlt
  induction l with
  | nil => exact .nil
  | cons k l ih =>
    simp only [List.map_cons, List.nodup_cons, List.mem_cons, forall_eq_or_imp] at h hlt ⊢
    refine ⟨?_, ih h.2 hlt.2⟩
    simp only [List.mem_map, not_exists, not_and]
    intro j hj e
    have := congrArg BitVec.toNat e
    simp only [BitVec.toNat_ofNat] at this
    rw [Nat.mod_eq_of_lt (by have := hlt.2 j hj; omega), Nat.mod_eq_of_lt (by have := hlt.1; omega)] at this
    exact h.1 (this ▸ hj)

theorem fourTimes_succ (k : Nat) (a : Word) : a + fourTimes (k + 1) = (a + 4#32) + fourTimes k := by
  apply BitVec.eq_of_toNat_eq; simp [fourTimes]; omega

theorem align_word_idem (a : Word) : Width.word.align (Width.word.align a) = Width.word.align a := by
  simp only [Width.align]; rw [BitVec.and_assoc]; rfl

theorem align_word_mod (a : Word) : (Width.word.align a).toNat % 4 = 0 := by
  have h : (Width.word.align a).extractLsb' 0 2 = 0#2 := by
    simp only [Width.align]; rw [BitVec.extractLsb'_and]; simp
  simpa [BitVec.extractLsb'_toNat] using congrArg BitVec.toNat h

/-- One word of a block load. -/
theorem State.memRead_blockWord (s : State) (a : Word) (seq : Bool) (h : s.ramAddress a = true) :
    (s.memRead (Width.word.align a) .word seq).1 = s.wordAt a := by
  rw [State.ramAddress_eq] at h
  rw [State.memRead_ram _ _ _ _ (by rw [region_align, region_align]; exact h)]
  simp only [rotateRead, align_word_mod, align_word_idem, region_align, State.wordAt, Memory.read]
  exact (ror_bytes _ 0 (by omega)).trans (rotateBytes_zero _)

/-- The words of a block load are those the bus gives one after the other. -/
theorem State.loadWords_readsWords (n : Nat) (a : Word) (seq : Bool) (s : State) :
    s.readsWords (s.loadWords n a seq).1 a seq := by
  induction n generalizing a seq s with
  | zero => trivial
  | succ n ih => exact ⟨rfl, ih (a + 4#32) true _⟩

/-- The words of a block load: as many as asked for, those of memory in RAM, and no more than reads happen (R173). -/
theorem State.loadWords_reads (n : Nat) (a : Word) (seq : Bool) (s : State) :
    (s.loadWords n a seq).1.length = n ∧ s.wordsAt a (s.loadWords n a seq).1 ∧
    ∃ k, ReadStep (s.bill k) (s.loadWords n a seq).2 := by
  induction n generalizing a seq s with
  | zero => exact ⟨rfl, fun k hk => absurd hk (by simp [State.loadWords]), 0, .refl s⟩
  | succ n ih =>
    simp only [State.loadWords]
    have h1 := State.memRead_readStep s (Width.word.align a) .word seq
    have h2 := ih (a + 4#32) true (s.memRead (Width.word.align a) .word seq).2
    have hv := s.memRead_blockWord a seq
    generalize s.memRead (Width.word.align a) .word seq = r at h1 h2 hv ⊢
    obtain ⟨v, u⟩ := r
    dsimp only at h1 h2 hv ⊢
    obtain ⟨hl, hw, k, hk⟩ := h2
    refine ⟨by simp [hl], fun j hj hram => ?_, s.cost (Width.word.align a) .word seq + k, ⟨?_⟩⟩
    · cases j with
      | zero => simp [fourTimes] at hram ⊢; exact hv hram
      | succ j =>
        rw [fourTimes_succ] at hram ⊢
        have e1 : ∀ b, u.ramAddress b = s.ramAddress b := fun b => by
          rw [State.ramAddress_eq, State.ramAddress_eq, h1.region]; rfl
        have e2 : ∀ b, u.wordAt b = s.wordAt b := fun b => by simp only [State.wordAt, h1.region, h1.mem]; rfl
        have := hw j (by simpa using hj) (by rw [e1]; exact hram)
        rw [e2] at this
        simpa using this
    · rw [hk.eq, h1.eq]
      simp [State.bill, State.billAccess, Nat.add_assoc]

/-- The registers a block load gives values, first of them first. -/
theorem Wrote.assignRegs (m : BitVec 5) (l : List (RegNo × Word)) (hl : (l.map (·.1)).Nodup) {s t : State}
    {ds : List (Fin 30 × Word)} (h : Wrote s t ds) :
    Wrote s (t.assignRegs m l) (((l.filter fun e => e.1 != 15#4).map fun e => (phys m e.1, e.2)) ++ ds) := by
  induction l generalizing t ds with
  | nil => exact h
  | cons e l ih =>
    obtain ⟨i, v⟩ := e
    simp only [List.map_cons, List.nodup_cons] at hl
    simp only [State.assignRegs]
    by_cases hi : i = 15#4
    · subst hi
      rw [State.setRegOf_pc]
      simpa using ih hl.2 h
    · have h1 := ih hl.2 (h.cons m i v hi)
      rw [List.filter_cons_of_pos (by simpa using hi), List.map_cons, List.cons_append]
      have e : ∀ k, List.lookup k ((phys m i, v) :: (((l.filter fun e => e.1 != 15#4).map
          fun e => (phys m e.1, e.2)) ++ ds)) =
          List.lookup k (((l.filter fun e => e.1 != 15#4).map fun e => (phys m e.1, e.2)) ++ (phys m i, v) :: ds) := by
        intro k
        rw [List.lookup_append]
        by_cases hk : k = phys m i
        · have : List.lookup k ((l.filter fun e => e.1 != 15#4).map fun e => (phys m e.1, e.2)) = none := by
            rw [List.lookup_eq_none_iff]
            intro p hp
            simp only [List.mem_map, List.mem_filter] at hp
            obtain ⟨⟨j, x⟩, ⟨hj, hj15⟩, rfl⟩ := hp
            simp only [bne_iff_ne, ne_eq] at hj15
            simp only [bne_iff_ne]
            rw [hk]
            intro e
            rw [phys_inj m i j hi hj15] at e
            subst e
            exact hl.1 (List.mem_map.mpr ⟨_, hj, rfl⟩)
          rw [this]; simp [hk]
        · simp only [List.lookup, beq_eq_false_iff_ne.mpr hk, List.lookup_append]
      intro k
      rw [e]
      exact h1 k

/-- Only general registers and their marks change. -/
theorem State.assignRegs_rest (m : BitVec 5) (l : List (RegNo × Word)) (t : State) :
    t.assignRegs m l = { t with cpu :=
      { t.cpu with gpr := (t.assignRegs m l).cpu.gpr, written := (t.assignRegs m l).cpu.written } } := by
  induction l generalizing t with
  | nil => rfl
  | cons e l ih =>
    simp only [State.assignRegs]
    rw [ih (t.setRegOf m e.1 e.2)]
    unfold State.setRegOf; split <;> rfl

theorem State.blockCells_congr {s t : State} (h : t = { s with cycles := t.cycles, mem := t.mem, icache := t.icache })
    (vs : List Word) (a : Word) : t.blockCells vs a = s.blockCells vs a := by
  induction vs generalizing a with
  | nil => rfl
  | cons v vs ih => simp only [State.blockCells, ih]; rw [h]; rfl

/-- The words of a block store that memory alone takes. -/
theorem State.storeWords_plain (vs : List Word) (a : Word) (seq : Bool) (s : State)
    (h : s.plainStores (wordAddresses vs.length a) = true) (hd : s.dma.held = []) :
    ∃ t, s.storeWords vs a seq = .ok t ∧ StoreStep s t (s.blockCells vs a) := by
  induction vs generalizing a seq s with
  | nil => exact ⟨s, rfl, .none s⟩
  | cons v vs ih =>
    simp only [State.plainStores, List.length_cons, wordAddresses, List.all_cons, Bool.and_eq_true] at h
    obtain ⟨t, ht, hs, -⟩ := State.memWrite_plain s a .word v seq h.1 hd
    have hps : ∀ b w, t.plainStore b w = s.plainStore b w := fun b w => by rw [hs.rest]; rfl
    obtain ⟨u, hu, hs2⟩ := ih (a + 4#32) true t (by simpa [State.plainStores, hps] using h.2) (by rw [hs.rest]; exact hd)
    refine ⟨u, by unfold State.storeWords; rw [ht]; exact hu, fun k => ?_, by rw [hs2.rest, hs.rest]⟩
    rw [hs2.bytes k, State.blockCells_congr hs.rest, hs.bytes k]
    simp only [State.blockCells, List.lookup_append]
    cases List.lookup k (s.blockCells vs (a + 4#32)) <;> simp

/-- A block store that hits the window of R205 at word k faults there, with the words before it stored (R354). -/
theorem State.storeWords_hazard (vs : List Word) (k : Nat) (a : Word) (seq : Bool) (s : State) (hk : k < vs.length)
    (h : s.plainStores (wordAddresses k a) = true) (hd : s.dma.held = [])
    (hh : s.storeWindow.hit (Width.word.align (a + fourTimes k)) 4 = true) :
    ∃ t, s.storeWords vs a seq = .error (.selfModifyHazard s.cpu.pc (a + fourTimes k) t) ∧
      t = { s with
        cycles := t.cycles, mem := t.mem, icache := t.icache,
        fault := some (.selfModifyHazard s.cpu.pc (a + fourTimes k)) } ∧
      WroteBytes s t (s.blockCells (vs.take k) a) := by
  induction k generalizing vs a seq s with
  | zero =>
    obtain ⟨v, vs, rfl⟩ : ∃ v l, vs = v :: l := by cases vs; simp at hk; exact ⟨_, _, rfl⟩
    have e : a + fourTimes 0 = a := by simp [fourTimes]
    rw [e] at hh ⊢
    refine ⟨{ s.billAccess a .word seq with fault := some (.selfModifyHazard s.cpu.pc a) }, ?_, rfl, fun _ => rfl⟩
    unfold State.storeWords; rw [State.memWrite_hazard s a .word v seq hh]; rfl
  | succ k ih =>
    obtain ⟨v, vs, rfl⟩ : ∃ v l, vs = v :: l := by cases vs; simp at hk; exact ⟨_, _, rfl⟩
    simp only [State.plainStores, wordAddresses, List.all_cons, Bool.and_eq_true] at h
    obtain ⟨t, ht, hs, -⟩ := State.memWrite_plain s a .word v seq h.1 hd
    have hps : ∀ b w, t.plainStore b w = s.plainStore b w := fun b w => by rw [hs.rest]; rfl
    rw [fourTimes_succ] at hh ⊢
    obtain ⟨u, hu, hr, hb⟩ := ih vs (a + 4#32) true t (by simpa using hk) (by simpa [State.plainStores, hps] using h.2)
      (by rw [hs.rest]; exact hd) (by rw [hs.rest]; exact hh)
    have hc : t.cpu = s.cpu := by rw [hs.rest]
    rw [hc] at hu hr
    refine ⟨u, by unfold State.storeWords; rw [ht]; exact hu, by rw [hr, hs.rest], fun j => ?_⟩
    rw [hb j, State.blockCells_congr hs.rest, hs.bytes j]
    simp only [List.take_succ_cons, State.blockCells, List.lookup_append]
    cases List.lookup j (s.blockCells (vs.take k) (a + 4#32)) <;> simp

theorem zip_fst (l : List RegNo) (vs : List Word) (h : vs.length = l.length) : (l.zip vs).map (·.1) = l := by
  rw [List.map_fst_zip]; omega

/-- Only general registers and their marks, the counter and what a read may move differ. -/
def RegsRead (s y : State) : Prop :=
  y = { s with
    cpu := { s.cpu with gpr := y.cpu.gpr, written := y.cpu.written }, cycles := y.cycles, draws := y.draws,
    save := { s.save with eeprom := y.save.eeprom } }

/-- A block load after its reads: the base and the registers are written, and nothing else moves. -/
theorem State.blockRegs (s v : State) (k : Nat) (h : ReadStep (s.bill k) v) (w : Bool) (rn : RegNo) (hrn : rn ≠ 15#4)
    (b : Word) (bank : BitVec 5) (regs : List RegNo) (hd : regs.Nodup) (vs : List Word) (hl : vs.length = regs.length)
    (y : State) (hy : y = ((v.bill 1).writeBack ⟨b, b, w⟩ rn).assignRegs bank (regs.zip vs)) :
    Wrote s y (loadedRegs bank regs vs ++ if w then [(s.here rn, b)] else []) ∧ RegsRead s y := by
  have hc : (v.bill 1).cpu = s.cpu := h.cpu
  have h1 := Wrote.writeBack (t := v.bill 1) ⟨b, b, w⟩ rn hc (fun _ => hrn)
  have h2 := Wrote.assignRegs bank (regs.zip vs) (by rw [zip_fst _ _ hl]; exact hd) h1
  have hr := State.assignRegs_rest bank (regs.zip vs) ((v.bill 1).writeBack ⟨b, b, w⟩ rn)
  rw [← hy] at h2 hr
  have hw : RegsRead s ((v.bill 1).writeBack ⟨b, b, w⟩ rn) := by
    unfold RegsRead State.writeBack; split
    · simp only [State.setReg_def, State.setRegOf, if_neg hrn, State.bill]; rw [h.eq]; rfl
    · simp only [State.bill]; rw [h.eq]; rfl
  refine ⟨h2, ?_⟩
  unfold RegsRead at hw ⊢
  rw [hr, hw]

/-- The end of LDM: the branch with its restore, or the advance. -/
theorem State.loadBlock_end (s y : State) (vs : List Word) (sf last : Bool) (ds : List (Fin 30 × Word))
    (ht : s.cpu.cpsr.t = false) (hrest : last = true → sf = true → ∃ q, s.restorable = some q ∧ s.spsr = some q)
    (hw : Wrote s y ds) (hy : RegsRead s y) (t : State)
    (hh : t =
      if last then
        let restored := if sf then (match s.restorable with | some q => y.setCpsr q | none => y) else y
        let jumped := restored.branchTo (vs.getLastD 0#32)
        jumped.billRefill (codeStep jumped.cpu.cpsr.t)
      else y.advance) :
    Wrote s t ds ∧ SameSpsrs s t ∧ OnlyCpuRead s t ∧ SameBytes s t ∧
    (if last then
      (if sf then some t.cpu.cpsr = s.spsr else t.cpu.cpsr = s.cpu.cpsr) ∧
      t.cpu.pc = vs.getLastD 0#32 &&& (if t.cpu.cpsr.t then 0xFFFFFFFE#32 else 0xFFFFFFFC#32)
    else t.cpu.cpsr = s.cpu.cpsr ∧ t.cpu.pc = s.cpu.pc + 4#32) := by
  subst hh
  unfold RegsRead at hy
  have jump : ∀ (z : State), z.cpu.gpr = y.cpu.gpr → z.cpu.written = y.cpu.written → SameSpsrs s z → OnlyCpuRead s z → z.mem = s.mem →
      let t := (z.branchTo (vs.getLastD 0#32)).billRefill (codeStep (z.branchTo (vs.getLastD 0#32)).cpu.cpsr.t)
      Wrote s t ds ∧ SameSpsrs s t ∧ OnlyCpuRead s t ∧ SameBytes s t ∧ t.cpu.cpsr = z.cpu.cpsr ∧
      t.cpu.pc = vs.getLastD 0#32 &&& (if t.cpu.cpsr.t then 0xFFFFFFFE#32 else 0xFFFFFFFC#32) := by
    intro z hg hk hs ho hm
    refine ⟨hw.of_gpr hg hk, hs, ?_, fun k => ?_, rfl, ?_⟩
    · unfold OnlyCpuRead at ho ⊢
      simp only [State.branchTo, State.billRefill, State.billAccess, State.bill, State.setPc]; rw [ho]
    · exact congrArg (fun m : Memory => m.byte k) hm
    · show alignPc z.cpu.cpsr.t _ = _ &&& (if z.cpu.cpsr.t then _ else _)
      unfold alignPc; split <;> rfl
  cases last
  · simp only [Bool.false_eq_true, if_false]
    refine ⟨hw.of_gpr rfl rfl, by rw [hy]; exact ⟨rfl, rfl⟩, ?_, fun k => by rw [hy]; rfl, by rw [hy]; rfl, ?_⟩
    · unfold OnlyCpuRead; simp only [State.advance, State.setPc]; rw [hy]
    · rw [hy]; simp [State.advance, codeStep, ht]
  · simp only [if_true]
    cases sf
    · simp only [Bool.false_eq_true, if_false]
      obtain ⟨h1, h2, h3, h4, h5, h6⟩ := jump y rfl rfl (by rw [hy]; exact ⟨rfl, rfl⟩) (by unfold OnlyCpuRead; rw [hy]) (by rw [hy])
      exact ⟨h1, h2, h3, h4, h5.trans (by rw [hy]), h6⟩
    · obtain ⟨q, hq, hq2⟩ := hrest rfl rfl
      rw [hq]
      simp only [if_true]
      obtain ⟨h1, h2, h3, h4, h5, h6⟩ := jump (y.setCpsr q) rfl rfl (by rw [hy]; exact ⟨rfl, rfl⟩)
        (by unfold OnlyCpuRead; simp only [State.setCpsr]; rw [hy]) (by rw [hy]; rfl)
      exact ⟨h1, h2, h3, h4, by rw [h5, hq2]; rfl, h6⟩

end Sys2Proof.Machine
end

