-- ==== Sys2Proof/Laws/Written.lean ====
section
/-! SUPPORT. The check for unwritten registers (R369): when it stops an instruction, what comes before it, and that a
machine whose registers are all written never meets it (R1186). -/

namespace Sys2Proof.Machine

/-- What the check answers says: the instruction executes, no restriction comes first, and it reads that register. -/
theorem State.unwrittenRead_some {s : State} {i : Instr} {r : StoredReg} (h : s.unwrittenRead i = some r) :
    s.executes i = true ∧ s.forbids i = false ∧ r ∈ s.reads i ∧ s.isWritten r = false := by
  unfold State.unwrittenRead at h
  split at h
  · rename_i hc
    simp only [Bool.and_eq_true, Bool.not_eq_true'] at hc
    exact ⟨hc.1, hc.2, List.mem_of_find?_eq_some h, by simpa using List.find?_some h⟩
  · cases h

/-- The check stops nothing exactly if an instruction that reads its operands finds them all written. -/
theorem State.unwrittenRead_none {s : State} {i : Instr} :
    s.unwrittenRead i = none ↔
      (s.executes i = true → s.forbids i = false → ∀ r ∈ s.reads i, s.isWritten r = true) := by
  unfold State.unwrittenRead
  cases s.executes i <;> cases s.forbids i <;> simp

/-- With every register written the check stops nothing (R1186). -/
theorem State.execute_written {s : State} (h : ∀ r, s.isWritten r = true) (i : Instr) : s.execute i = exec i s := by
  unfold State.execute
  rw [State.unwrittenRead_none.mpr fun _ _ r _ => h r]

/-- Where RestoreCheck faults no status can be restored (R365). -/
theorem State.restorable_of_badRestore {s : State} (h : s.badRestore = true) : s.restorable = none := by
  unfold State.badRestore at h
  unfold State.restorable State.spsr
  split at h
  · rename_i hk; rw [hk]; rfl
  · rename_i k hk
    simp only [Bool.and_eq_true, Bool.not_eq_true'] at h
    rw [hk]; simp [h.2]

/-- A data-processing result whose shift amount or restore is forbidden (R403, R409, D62). -/
theorem State.writeResult_forbidden (s : State) (i : Instr) (sf : Bool) (rd : RegNo) (op2 : Operand2) (o : AddOut)
    (h : (badShiftAmount op2 || (sf && rd == 15#4 && s.badRestore)) = true) :
    s.writeResult i sf rd op2 o = s.unpredictable i := by
  unfold State.writeResult
  split
  · rfl
  · rename_i hb
    simp only [hb, Bool.false_or, Bool.and_eq_true, beq_iff_eq] at h
    simp [h.1.1, h.1.2, State.restorable_of_badRestore h.2]

/-- MRS of a forbidden form (R430). -/
theorem State.moveFromPsr_forbidden (s : State) (i : Instr) (r : Bool) (rd : RegNo)
    (h : (rd == 15#4 || (r && s.spsr.isNone)) = true) :
    s.moveFromPsr i rd (if r then s.spsr else some s.cpu.cpsr) = s.unpredictable i := by
  unfold State.moveFromPsr
  split
  · rfl
  · rename_i hb
    simp only [beq_iff_eq, hb, Bool.or_eq_true, Bool.and_eq_true, Option.isNone_iff_eq_none, false_or] at h
    simp [h.1, h.2]

/-- MSR of the SPSR in a mode without one (R432). -/
theorem State.msrSpsr_forbidden (s : State) (i : Instr) (mask : BitVec 4) (v : Word) (h : s.spsr.isNone = true) :
    s.msrSpsr i mask v = s.unpredictable i := by
  unfold State.msrSpsr; rw [Option.isNone_iff_eq_none.mp h]

/-- LDM of a forbidden form, or with a restore that faults (R545, R542). -/
theorem State.badLdm_forbidden {s : State} {sf w : Bool} {rn : RegNo} {list : BitVec 16}
    (h : (s.badLdmForm sf w rn list || (sf && list.getLsbD 15 && s.badRestore)) = true) :
    s.badLdm sf w rn list = true := by
  unfold State.badLdm
  simp only [Bool.or_eq_true, Bool.and_eq_true] at h ⊢
  exact h.imp_right fun h => ⟨h.1, by rw [State.restorable_of_badRestore h.2]; rfl⟩

/-- A restriction that comes before the check ends the instruction (R354, R409). -/
theorem State.forbids_stops (s : State) (i : Instr) (hx : s.executes i = true) (hf : s.forbids i = true) :
    exec i s = .fault (s.raise (.unpredictable s.cpu.pc (encode i).word)) := by
  unfold State.forbids at hf
  split at hf
  all_goals first | cases hf | skip
  all_goals simp only [State.executes, Instr.cond, Option.all_some] at hx
  all_goals simp only [exec, execMul, execMla, execUmull, execUmlal, execSmull, execSmlal, execSwp, execSwpb, execStrhReg,
    execStrhImm, execLdrhReg, execLdrsbReg, execLdrshReg, execLdrhImm, execLdrsbImm, execLdrshImm, execMrs,
    execMsrCpsrReg, execMsrSpsrReg, execMsrSpsrImm, execAnd, execEor, execSub, execRsb, execAdd, execAdc, execSbc, execRsc,
    execOrr, execBic, execMov, execMvn, execTst, execTeq, execCmp, execCmn, execStr, execStrb, execStrt, execStrbt,
    execLdr, execLdrb, execLdrt, execLdrbt, execStm, execLdm, execTMul, execTAddHi, execTCmpHi, execTMovHi, execTPush,
    execTPop, execTStmia, execTLdmia, armCond, hx, if_true]
  all_goals first
    | exact congrArg answer (if_pos hf)
    | exact congrArg answer (if_pos (by simpa using hf))
    | exact congrArg answer (if_pos (State.badLdm_forbidden hf))
    | exact congrArg answer (s.writeResult_forbidden _ _ _ _ _ hf)
    | exact congrArg answer (s.moveFromPsr_forbidden _ _ _ hf)
    | exact congrArg answer (s.msrSpsr_forbidden _ _ _ hf)
    | (split
       · rfl
       · rename_i h
         exact congrArg answer (s.msrSpsr_forbidden _ _ _ (by simpa [h] using hf)))

end Sys2Proof.Machine
end

