-- ==== Sys2Proof/Tests/Slice0.lean ====
section
/-! SUPPORT. The model's own tests: ill-formed terms, words of every row, the spec's examples run for one step, and a
witness for the hypotheses of every statement. -/

namespace Sys2Proof.Tests

open Sys2Proof.Machine

set_option Elab.async false

/-! ### Well-formedness -/

/-- A post-indexed single transfer with w = 1 is the T row's word (R265), and a Thumb branch has no condition AL (R296). -/
theorem test_ill_formed_terms :
    (Instr.str .al false true true 1#4 0#4 (.imm 4#12)).wellFormed = false ∧
    (Instr.ldr .al false true true 1#4 0#4 (.imm 4#12)).wellFormed = false ∧
    (Instr.strb .al false true true 1#4 0#4 (.imm 4#12)).wellFormed = false ∧
    (Instr.ldrb .al false true true 1#4 0#4 (.imm 4#12)).wellFormed = false ∧
    (Instr.tBcond .al 0#8).wellFormed = false := by decide

/-! ### Decoding -/

/-- ARM branches and status transfers: words written out from the encodings of 30_encoding.md. -/
theorem test_decode_arm_branches_and_status_transfers :
    decodeArm 0xE12FFF10#32 = .ok (.bx .al 0#4) ∧
    decodeArm 0xEAFFFFFE#32 = .ok (.b .al 0xFFFFFE#24) ∧
    decodeArm 0xEB0003FE#32 = .ok (.bl .al 0x3FE#24) ∧
    decodeArm 0xEF000005#32 = .ok (.swi .al 5#24) ∧
    decodeArm 0xE10F0000#32 = .ok (.mrs .al false 0#4) ∧
    decodeArm 0xE14F0000#32 = .ok (.mrs .al true 0#4) ∧
    decodeArm 0xE129F000#32 = .ok (.msrCpsrReg .al 9#4 0#4) ∧
    decodeArm 0xE169F000#32 = .ok (.msrSpsrReg .al 9#4 0#4) ∧
    decodeArm 0xE321F012#32 = .ok (.msrCpsrImm .al 1#4 0#4 0x12#8) ∧
    decodeArm 0xE368F20F#32 = .ok (.msrSpsrImm .al 8#4 2#4 0x0F#8) ∧
    decodeArm 0xE6000010#32 = .ok (.undefinedArm .al 0#20 0#4) ∧
    decodeArm 0xEC100100#32 = .ok (.ldcStc .al 0x0100100#25) ∧
    decodeArm 0xEE010203#32 = .ok (.cdp .al 0x810#19 3#4) ∧
    decodeArm 0xEE010F10#32 = .ok (.mcrMrc .al 0x878#19 0#4) := by
  and_intros <;> rfl

/-- ARM multiplies and swaps: words written out from the encodings of 30_encoding.md. -/
theorem test_decode_arm_multiplies_and_swaps :
    decodeArm 0xE0030291#32 = .ok (.mul .al false 3#4 0#4 2#4 1#4) ∧
    decodeArm 0xE0203291#32 = .ok (.mla .al false 0#4 3#4 2#4 1#4) ∧
    decodeArm 0xE0810392#32 = .ok (.umull .al false 1#4 0#4 3#4 2#4) ∧
    decodeArm 0xE0A10392#32 = .ok (.umlal .al false 1#4 0#4 3#4 2#4) ∧
    decodeArm 0xE0C10392#32 = .ok (.smull .al false 1#4 0#4 3#4 2#4) ∧
    decodeArm 0xE0F10392#32 = .ok (.smlal .al true 1#4 0#4 3#4 2#4) ∧
    decodeArm 0xE1001092#32 = .ok (.swp .al 0#4 1#4 2#4) ∧
    decodeArm 0xE1401092#32 = .ok (.swpb .al 0#4 1#4 2#4) := by
  and_intros <;> rfl

/-- ARM halfword transfers: words written out from the encodings of 30_encoding.md. -/
theorem test_decode_arm_halfword_transfers :
    decodeArm 0xE18100B2#32 = .ok (.strhReg .al true true false 1#4 0#4 2#4) ∧
    decodeArm 0xE19100B2#32 = .ok (.ldrhReg .al true true false 1#4 0#4 2#4) ∧
    decodeArm 0xE13100D2#32 = .ok (.ldrsbReg .al true false true 1#4 0#4 2#4) ∧
    decodeArm 0xE01100F2#32 = .ok (.ldrshReg .al false false false 1#4 0#4 2#4) ∧
    decodeArm 0xE1C101B2#32 = .ok (.strhImm .al true true false 1#4 0#4 0x12#8) ∧
    decodeArm 0xE1D101B2#32 = .ok (.ldrhImm .al true true false 1#4 0#4 0x12#8) ∧
    decodeArm 0xE1D101D2#32 = .ok (.ldrsbImm .al true true false 1#4 0#4 0x12#8) ∧
    decodeArm 0xE1D101F2#32 = .ok (.ldrshImm .al true true false 1#4 0#4 0x12#8) := by
  and_intros <;> rfl

/-- ARM data processing: words written out from the encodings of 30_encoding.md. -/
theorem test_decode_arm_data_processing :
    decodeArm 0xE2010001#32 = .ok (.and .al false 1#4 0#4 (.imm 0#4 1#8)) ∧
    decodeArm 0xE2210001#32 = .ok (.eor .al false 1#4 0#4 (.imm 0#4 1#8)) ∧
    decodeArm 0xE2410001#32 = .ok (.sub .al false 1#4 0#4 (.imm 0#4 1#8)) ∧
    decodeArm 0xE2610001#32 = .ok (.rsb .al false 1#4 0#4 (.imm 0#4 1#8)) ∧
    decodeArm 0xE2810001#32 = .ok (.add .al false 1#4 0#4 (.imm 0#4 1#8)) ∧
    decodeArm 0xE2A10001#32 = .ok (.adc .al false 1#4 0#4 (.imm 0#4 1#8)) ∧
    decodeArm 0xE2C10001#32 = .ok (.sbc .al false 1#4 0#4 (.imm 0#4 1#8)) ∧
    decodeArm 0xE2E10001#32 = .ok (.rsc .al false 1#4 0#4 (.imm 0#4 1#8)) ∧
    decodeArm 0xE3110001#32 = .ok (.tst .al 1#4 0#4 (.imm 0#4 1#8)) ∧
    decodeArm 0xE3310001#32 = .ok (.teq .al 1#4 0#4 (.imm 0#4 1#8)) ∧
    decodeArm 0xE3510001#32 = .ok (.cmp .al 1#4 0#4 (.imm 0#4 1#8)) ∧
    decodeArm 0xE3710001#32 = .ok (.cmn .al 1#4 0#4 (.imm 0#4 1#8)) ∧
    decodeArm 0xE3810001#32 = .ok (.orr .al false 1#4 0#4 (.imm 0#4 1#8)) ∧
    decodeArm 0xE3A10001#32 = .ok (.mov .al false 1#4 0#4 (.imm 0#4 1#8)) ∧
    decodeArm 0xE3C10001#32 = .ok (.bic .al false 1#4 0#4 (.imm 0#4 1#8)) ∧
    decodeArm 0xE3E10001#32 = .ok (.mvn .al false 1#4 0#4 (.imm 0#4 1#8)) ∧
    decodeArm 0x01B00271#32 = .ok (.mov .eq true 0#4 0#4 (.regReg 2#4 .ror 1#4)) ∧
    decodeArm 0xE1810242#32 = .ok (.orr .al false 1#4 0#4 (.regImm 4#5 .asr 2#4)) := by
  and_intros <;> rfl

/-- ARM single and block transfers: words written out from the encodings of 30_encoding.md. -/
theorem test_decode_arm_single_and_block_transfers :
    decodeArm 0xE5810004#32 = .ok (.str .al true true false 1#4 0#4 (.imm 4#12)) ∧
    decodeArm 0xE5910004#32 = .ok (.ldr .al true true false 1#4 0#4 (.imm 4#12)) ∧
    decodeArm 0xE5C10004#32 = .ok (.strb .al true true false 1#4 0#4 (.imm 4#12)) ∧
    decodeArm 0xE5510004#32 = .ok (.ldrb .al true false false 1#4 0#4 (.imm 4#12)) ∧
    decodeArm 0xE4A10004#32 = .ok (.strt .al true 1#4 0#4 (.imm 4#12)) ∧
    decodeArm 0xE4310004#32 = .ok (.ldrt .al false 1#4 0#4 (.imm 4#12)) ∧
    decodeArm 0xE4E10004#32 = .ok (.strbt .al true 1#4 0#4 (.imm 4#12)) ∧
    decodeArm 0xE4F10004#32 = .ok (.ldrbt .al true 1#4 0#4 (.imm 4#12)) ∧
    decodeArm 0xE7310182#32 = .ok (.ldr .al true false true 1#4 0#4 (.reg 3#5 .lsl 2#4)) ∧
    decodeArm 0xE92D4003#32 = .ok (.stm .al true false false true 13#4 0x4003#16) ∧
    decodeArm 0xE8BD8003#32 = .ok (.ldm .al false true false true 13#4 0x8003#16) ∧
    decodeArm 0xE9D10006#32 = .ok (.ldm .al true true true false 1#4 0x0006#16) := by
  and_intros <;> rfl

/-- Thumb shifts and additions: halfwords written out from the encodings of 30_encoding.md. -/
theorem test_decode_thumb_shifts_and_additions :
    decodeThumb 0x0048#16 = .ok (.tLslImm 1#5 1#3 0#3) ∧
    decodeThumb 0x0848#16 = .ok (.tLsrImm 1#5 1#3 0#3) ∧
    decodeThumb 0x1048#16 = .ok (.tAsrImm 1#5 1#3 0#3) ∧
    decodeThumb 0x1888#16 = .ok (.tAddReg 2#3 1#3 0#3) ∧
    decodeThumb 0x1A88#16 = .ok (.tSubReg 2#3 1#3 0#3) ∧
    decodeThumb 0x1C88#16 = .ok (.tAddImm3 2#3 1#3 0#3) ∧
    decodeThumb 0x1E88#16 = .ok (.tSubImm3 2#3 1#3 0#3) ∧
    decodeThumb 0x2112#16 = .ok (.tMovImm8 1#3 0x12#8) ∧
    decodeThumb 0x2912#16 = .ok (.tCmpImm8 1#3 0x12#8) ∧
    decodeThumb 0x3112#16 = .ok (.tAddImm8 1#3 0x12#8) ∧
    decodeThumb 0x3912#16 = .ok (.tSubImm8 1#3 0x12#8) := by
  and_intros <;> rfl

/-- Thumb register operations: halfwords written out from the encodings of 30_encoding.md. -/
theorem test_decode_thumb_register_operations :
    decodeThumb 0x4008#16 = .ok (.tAnd 1#3 0#3) ∧
    decodeThumb 0x4048#16 = .ok (.tEor 1#3 0#3) ∧
    decodeThumb 0x4088#16 = .ok (.tLslReg 1#3 0#3) ∧
    decodeThumb 0x40C8#16 = .ok (.tLsrReg 1#3 0#3) ∧
    decodeThumb 0x4108#16 = .ok (.tAsrReg 1#3 0#3) ∧
    decodeThumb 0x4148#16 = .ok (.tAdc 1#3 0#3) ∧
    decodeThumb 0x4188#16 = .ok (.tSbc 1#3 0#3) ∧
    decodeThumb 0x41C8#16 = .ok (.tRorReg 1#3 0#3) ∧
    decodeThumb 0x4208#16 = .ok (.tTst 1#3 0#3) ∧
    decodeThumb 0x4248#16 = .ok (.tNeg 1#3 0#3) ∧
    decodeThumb 0x4288#16 = .ok (.tCmpReg 1#3 0#3) ∧
    decodeThumb 0x42C8#16 = .ok (.tCmn 1#3 0#3) ∧
    decodeThumb 0x4308#16 = .ok (.tOrr 1#3 0#3) ∧
    decodeThumb 0x4348#16 = .ok (.tMul 1#3 0#3) ∧
    decodeThumb 0x4388#16 = .ok (.tBic 1#3 0#3) ∧
    decodeThumb 0x43C8#16 = .ok (.tMvn 1#3 0#3) ∧
    decodeThumb 0x44F8#16 = .ok (.tAddHi 15#4 8#4) ∧
    decodeThumb 0x4580#16 = .ok (.tCmpHi 0#4 8#4) ∧
    decodeThumb 0x46F7#16 = .ok (.tMovHi 14#4 15#4) ∧
    decodeThumb 0x4770#16 = .ok (.tBx 14#4) := by
  and_intros <;> rfl

/-- Thumb transfers: halfwords written out from the encodings of 30_encoding.md. -/
theorem test_decode_thumb_transfers :
    decodeThumb 0x4902#16 = .ok (.tLdrPc 1#3 2#8) ∧
    decodeThumb 0x5088#16 = .ok (.tStrReg 2#3 1#3 0#3) ∧
    decodeThumb 0x5488#16 = .ok (.tStrbReg 2#3 1#3 0#3) ∧
    decodeThumb 0x5888#16 = .ok (.tLdrReg 2#3 1#3 0#3) ∧
    decodeThumb 0x5C88#16 = .ok (.tLdrbReg 2#3 1#3 0#3) ∧
    decodeThumb 0x5288#16 = .ok (.tStrhReg 2#3 1#3 0#3) ∧
    decodeThumb 0x5A88#16 = .ok (.tLdrhReg 2#3 1#3 0#3) ∧
    decodeThumb 0x5688#16 = .ok (.tLdsbReg 2#3 1#3 0#3) ∧
    decodeThumb 0x5E88#16 = .ok (.tLdshReg 2#3 1#3 0#3) ∧
    decodeThumb 0x6048#16 = .ok (.tStrImm 1#5 1#3 0#3) ∧
    decodeThumb 0x6848#16 = .ok (.tLdrImm 1#5 1#3 0#3) ∧
    decodeThumb 0x7048#16 = .ok (.tStrbImm 1#5 1#3 0#3) ∧
    decodeThumb 0x7848#16 = .ok (.tLdrbImm 1#5 1#3 0#3) ∧
    decodeThumb 0x8048#16 = .ok (.tStrhImm 1#5 1#3 0#3) ∧
    decodeThumb 0x8848#16 = .ok (.tLdrhImm 1#5 1#3 0#3) ∧
    decodeThumb 0x9102#16 = .ok (.tStrSp 1#3 2#8) ∧
    decodeThumb 0x9902#16 = .ok (.tLdrSp 1#3 2#8) ∧
    decodeThumb 0xA002#16 = .ok (.tAddPc 0#3 2#8) ∧
    decodeThumb 0xA802#16 = .ok (.tAddSp 0#3 2#8) ∧
    decodeThumb 0xB084#16 = .ok (.tAdjustSp true 4#7) ∧
    decodeThumb 0xB503#16 = .ok (.tPush true 3#8) ∧
    decodeThumb 0xBD03#16 = .ok (.tPop true 3#8) ∧
    decodeThumb 0xC006#16 = .ok (.tStmia 0#3 6#8) ∧
    decodeThumb 0xC806#16 = .ok (.tLdmia 0#3 6#8) := by
  and_intros <;> rfl

/-- Thumb branches and undefined halfwords: halfwords written out from the encodings of 30_encoding.md. -/
theorem test_decode_thumb_branches_and_undefined_halfwords :
    decodeThumb 0xDF05#16 = .ok (.tSwi 5#8) ∧
    decodeThumb 0xD1FC#16 = .ok (.tBcond .ne 0xFC#8) ∧
    decodeThumb 0xE7FE#16 = .ok (.tB 0x7FE#11) ∧
    decodeThumb 0xF000#16 = .ok (.tBlHigh 0#11) ∧
    decodeThumb 0xFF7E#16 = .ok (.tBlLow 0x77E#11) ∧
    decodeThumb 0xDE05#16 = .ok (.tUndefCond 5#8) ∧
    decodeThumb 0xE801#16 = .ok (.tUndefBlx 1#11) ∧
    decodeThumb 0xB101#16 = .ok (.tUndefB1 1#8) ∧
    decodeThumb 0xB201#16 = .ok (.tUndefB2 1#8) ∧
    decodeThumb 0xB301#16 = .ok (.tUndefB3 1#8) ∧
    decodeThumb 0xB601#16 = .ok (.tUndefB6 1#8) ∧
    decodeThumb 0xB701#16 = .ok (.tUndefB7 1#8) ∧
    decodeThumb 0xB801#16 = .ok (.tUndefB8 1#8) ∧
    decodeThumb 0xB901#16 = .ok (.tUndefB9 1#8) ∧
    decodeThumb 0xBA01#16 = .ok (.tUndefBA 1#8) ∧
    decodeThumb 0xBB01#16 = .ok (.tUndefBB 1#8) ∧
    decodeThumb 0xBE01#16 = .ok (.tUndefBE 1#8) ∧
    decodeThumb 0xBF01#16 = .ok (.tUndefBF 1#8) := by
  and_intros <;> rfl

/-! ### One step on a small state: the examples of the spec's rules -/

/-- A status register from its word. -/
def psr (w : Word) : Psr := (Psr.zero.setFlagBits w).setControlBits w

/-- Write registers, in the state's mode. -/
def lay (regs : List (RegNo × Word)) (s : State) : State := regs.foldl (fun s e => s.setReg e.1 e.2) s

/-- Memory that holds words at storage addresses. -/
def cells (ws : List (Nat × Word)) : Memory := ws.foldl (fun m e => m.write e.1 e.2 .word) []

/-- The reset machine with a status, a program counter, registers and words of memory. -/
def bench (cpsr pc : Word) (regs : List (RegNo × Word)) (ws : List (Nat × Word)) : State :=
  lay regs { State.reset with mem := cells ws, cpu := { State.reset.cpu with cpsr := psr cpsr, pc := pc } }

/-- Of a next state: registers, CPSR and words of memory. -/
def see (rs : List RegNo) (ks : List Nat) : Answer → Option (List Word)
  | .next t => some (rs.map (t.reg 0#32) ++ [t.cpu.cpsr.toWord] ++ ks.map fun k => t.mem.read k .word)
  | _ => none

/-- The fault record in the state an answer's fault leaves. -/
def stopOf : Answer → Option FaultRecord
  | .fault (.illegalInstruction _ _ t) | .fault (.unpredictable _ _ t) | .fault (.selfModifyHazard _ _ t) => t.fault
  | .fault (.unwrittenRegister _ _ t) => t.fault
  | _ => none

/-- Words of memory in the state a fault of R205 leaves. -/
def leftWords (ks : List Nat) : Answer → Option (List Word)
  | .fault (.selfModifyHazard _ _ t) => some (ks.map fun k => t.mem.read k .word)
  | _ => none

/-- The state with an SPSR of IRQ mode. -/
def withSpsr (w : Word) (s : State) : State := { s with cpu := { s.cpu with spsr := s.cpu.spsr.set 1 (psr w) } }

/-- The examples of R412; R413; R414; R415; R416; R417. -/
theorem test_arm_arithmetic :
    see [0#4, 15#4] [] (step (bench 0x1F#32 0x8000000#32 [(1#4, 0x1#32), (2#4, 0x2#32)]
        [(0x8000000, 0xE0510002#32)])) =
        some [0xFFFFFFFF#32, 0x8000004#32, 0x8000001F#32] ∧
    see [0#4, 15#4] [] (step (bench 0x1F#32 0x8000000#32 [(1#4, 0x5#32)]
        [(0x8000000, 0xE2710000#32)])) =
        some [0xFFFFFFFB#32, 0x8000004#32, 0x8000001F#32] ∧
    see [0#4, 15#4] [] (step (bench 0x1F#32 0x8000000#32 [(1#4, 0x7FFFFFFF#32), (2#4, 0x1#32)]
        [(0x8000000, 0xE0910002#32)])) =
        some [0x80000000#32, 0x8000004#32, 0x9000001F#32] ∧
    see [0#4, 15#4] [] (step (bench 0x2000001F#32 0x8000000#32 [(1#4, 0xFFFFFFFF#32), (2#4, 0x0#32)]
        [(0x8000000, 0xE0B10002#32)])) =
        some [0x0#32, 0x8000004#32, 0x6000001F#32] ∧
    see [0#4, 15#4] [] (step (bench 0x1F#32 0x8000000#32 [(1#4, 0x5#32), (2#4, 0x3#32)]
        [(0x8000000, 0xE0D10002#32)])) =
        some [0x1#32, 0x8000004#32, 0x2000001F#32] ∧
    see [0#4, 15#4] [] (step (bench 0x1F#32 0x8000000#32 [(1#4, 0x3#32), (2#4, 0x5#32)]
        [(0x8000000, 0xE0F10002#32)])) =
        some [0x1#32, 0x8000004#32, 0x2000001F#32] := by decide +kernel

/-- The examples of R410; R411; R422; R423; R423; R424; R425. -/
theorem test_arm_logic :
    see [0#4, 15#4] [] (step (bench 0xF000001F#32 0x8000000#32 [(1#4, 0x12345678#32)]
        [(0x8000000, 0xE21100FF#32)])) =
        some [0x78#32, 0x8000004#32, 0x3000001F#32] ∧
    see [0#4, 15#4] [] (step (bench 0x1F#32 0x8000000#32 [(1#4, 0xF0F0F0F0#32), (2#4, 0xF0F0F0F0#32)]
        [(0x8000000, 0xE0310002#32)])) =
        some [0x0#32, 0x8000004#32, 0x4000001F#32] ∧
    see [0#4, 15#4] [] (step (bench 0x1F#32 0x8000000#32 [(1#4, 0xF#32), (2#4, 0xF#32)]
        [(0x8000000, 0xE1810202#32)])) =
        some [0xFF#32, 0x8000004#32, 0x1F#32] ∧
    see [0#4, 15#4] [] (step (bench 0x2000001F#32 0x8000000#32 [(1#4, 0x3#32)]
        [(0x8000000, 0xE1B00061#32)])) =
        some [0x80000001#32, 0x8000004#32, 0xA000001F#32] ∧
    see [0#4, 15#4] [] (step (bench 0x1F#32 0x8000000#32 [(1#4, 0x80000001#32), (2#4, 0x20#32)]
        [(0x8000000, 0xE1B00271#32)])) =
        some [0x80000001#32, 0x8000004#32, 0xA000001F#32] ∧
    see [0#4, 15#4] [] (step (bench 0x1F#32 0x8000000#32 [(1#4, 0xFFFFFFFF#32)]
        [(0x8000000, 0xE3C100FF#32)])) =
        some [0xFFFFFF00#32, 0x8000004#32, 0x1F#32] ∧
    see [0#4, 15#4] [] (step (bench 0x7000001F#32 0x8000000#32 []
        [(0x8000000, 0xE3F00000#32)])) =
        some [0xFFFFFFFF#32, 0x8000004#32, 0xB000001F#32] := by decide +kernel

/-- The examples of R418; R419; R420; R421. -/
theorem test_arm_compares :
    see [0#4, 15#4] [] (step (bench 0x1F#32 0x8000000#32 [(1#4, 0x80000000#32)]
        [(0x8000000, 0xE3110102#32)])) =
        some [0x0#32, 0x8000004#32, 0xA000001F#32] ∧
    see [0#4, 15#4] [] (step (bench 0x1F#32 0x8000000#32 [(1#4, 0x1234#32)]
        [(0x8000000, 0xE1310001#32)])) =
        some [0x0#32, 0x8000004#32, 0x4000001F#32] ∧
    see [0#4, 15#4] [] (step (bench 0x1F#32 0x8000000#32 [(1#4, 0x80000000#32)]
        [(0x8000000, 0xE3510000#32)])) =
        some [0x0#32, 0x8000004#32, 0xA000001F#32] ∧
    see [0#4, 15#4] [] (step (bench 0x1F#32 0x8000000#32 [(1#4, 0xFFFFFFFF#32)]
        [(0x8000000, 0xE3710001#32)])) =
        some [0x0#32, 0x8000004#32, 0x6000001F#32] := by decide +kernel

/-- The examples of R430; R431: r13 is then the IRQ bank's; R431, both fields. -/
theorem test_status_transfer :
    see [0#4, 15#4] [] (step (bench 0x2000001F#32 0x8000000#32 []
        [(0x8000000, 0xE10F0000#32)])) =
        some [0x2000001F#32, 0x8000004#32, 0x2000001F#32] ∧
    see [13#4, 15#4] [] (step (bench 0x1F#32 0x8000000#32 [(13#4, 0x5#32)]
        [(0x8000000, 0xE321F012#32)])) =
        some [0x0#32, 0x8000004#32, 0x12#32] ∧
    see [0#4, 15#4] [] (step (bench 0x1F#32 0x8000000#32 [(0#4, 0x60000092#32)]
        [(0x8000000, 0xE129F000#32)])) =
        some [0x60000092#32, 0x8000004#32, 0x60000092#32] := by decide +kernel

/-- The examples of R471; R475; R476; R477 without S; R478. -/
theorem test_multiplies :
    see [0#4, 15#4] [] (step (bench 0x1F#32 0x8000000#32 [(1#4, 0x3#32), (2#4, 0x4#32), (3#4, 0x5#32)]
        [(0x8000000, 0xE0203291#32)])) =
        some [0x11#32, 0x8000004#32, 0x1F#32] ∧
    see [0#4, 1#4, 15#4] [] (step (bench 0x1F#32 0x8000000#32 [(2#4, 0xFFFFFFFF#32), (3#4, 0xFFFFFFFF#32)]
        [(0x8000000, 0xE0810392#32)])) =
        some [0x1#32, 0xFFFFFFFE#32, 0x8000004#32, 0x1F#32] ∧
    see [0#4, 1#4, 15#4] [] (step (bench 0x1F#32 0x8000000#32 [(0#4, 0x1#32), (2#4, 0xFFFFFFFF#32), (3#4, 0x1#32)]
        [(0x8000000, 0xE0A10392#32)])) =
        some [0x0#32, 0x1#32, 0x8000004#32, 0x1F#32] ∧
    see [0#4, 1#4, 15#4] [] (step (bench 0x1F#32 0x8000000#32 [(2#4, 0xFFFFFFFF#32), (3#4, 0x2#32)]
        [(0x8000000, 0xE0C10392#32)])) =
        some [0xFFFFFFFE#32, 0xFFFFFFFF#32, 0x8000004#32, 0x1F#32] ∧
    see [0#4, 1#4, 15#4] [] (step (bench 0x1F#32 0x8000000#32 [(2#4, 0x80000000#32), (3#4, 0x80000000#32)]
        [(0x8000000, 0xE0E10392#32)])) =
        some [0x0#32, 0x40000000#32, 0x8000004#32, 0x1F#32] := by decide +kernel

/-- The examples of R500; R500; R501; R501; R502; R503. -/
theorem test_arm_words_and_bytes :
    see [0#4, 15#4] [] (step (bench 0x1F#32 0x8000000#32 [(1#4, 0x3000000#32)]
        [(0x8000000, 0xE5910001#32), (0x3000000, 0x11223344#32)])) =
        some [0x44112233#32, 0x8000004#32, 0x1F#32] ∧
    see [0#4, 1#4, 15#4] [] (step (bench 0x1F#32 0x8000000#32 [(1#4, 0x3000004#32)]
        [(0x8000000, 0xE5310004#32), (0x3000000, 0x11223344#32)])) =
        some [0x11223344#32, 0x3000000#32, 0x8000004#32, 0x1F#32] ∧
    see [1#4, 15#4] [0x3000000] (step (bench 0x1F#32 0x8000000#32 [(0#4, 0xAABBCCDD#32), (1#4, 0x3000000#32)]
        [(0x8000000, 0xE5810002#32)])) =
        some [0x3000000#32, 0x8000004#32, 0x1F#32, 0xAABBCCDD#32] ∧
    see [1#4, 15#4] [0x3000000] (step (bench 0x1F#32 0x8000000#32 [(1#4, 0x3000000#32)]
        [(0x8000000, 0xE581F000#32)])) =
        some [0x3000000#32, 0x8000004#32, 0x1F#32, 0x800000C#32] ∧
    see [0#4, 15#4] [] (step (bench 0x1F#32 0x8000000#32 [(1#4, 0x3000000#32)]
        [(0x8000000, 0xE5D10003#32), (0x3000000, 0x11223344#32)])) =
        some [0x11#32, 0x8000004#32, 0x1F#32] ∧
    see [1#4, 15#4] [0x3000000] (step (bench 0x1F#32 0x8000000#32 [(0#4, 0xAABBCCDD#32), (1#4, 0x3000000#32)]
        [(0x8000000, 0xE5C10001#32), (0x3000000, 0x0#32)])) =
        some [0x3000000#32, 0x8000004#32, 0x1F#32, 0xDD00#32] := by decide +kernel

/-- The examples of R504; R505; R506; R507. -/
theorem test_arm_translated_transfers :
    see [0#4, 1#4, 15#4] [] (step (bench 0x1F#32 0x8000000#32 [(1#4, 0x3000000#32)]
        [(0x8000000, 0xE4B10004#32), (0x3000000, 0x11223344#32)])) =
        some [0x11223344#32, 0x3000004#32, 0x8000004#32, 0x1F#32] ∧
    see [1#4, 15#4] [0x3000000] (step (bench 0x1F#32 0x8000000#32 [(0#4, 0x5#32), (1#4, 0x3000000#32)]
        [(0x8000000, 0xE4A10004#32)])) =
        some [0x3000004#32, 0x8000004#32, 0x1F#32, 0x5#32] ∧
    see [0#4, 1#4, 15#4] [] (step (bench 0x1F#32 0x8000000#32 [(1#4, 0x3000000#32)]
        [(0x8000000, 0xE4F10001#32), (0x3000000, 0x11223344#32)])) =
        some [0x44#32, 0x3000001#32, 0x8000004#32, 0x1F#32] ∧
    see [1#4, 15#4] [0x3000000] (step (bench 0x1F#32 0x8000000#32 [(0#4, 0xAABBCCDD#32), (1#4, 0x3000000#32)]
        [(0x8000000, 0xE4E10001#32), (0x3000000, 0x0#32)])) =
        some [0x3000001#32, 0x8000004#32, 0x1F#32, 0xDD#32] := by decide +kernel

/-- The examples of R520; R520, register offset; R521; R521; R522; R522, register offset; R523; R523, register offset.
-/
theorem test_arm_halfwords :
    see [1#4, 15#4] [0x3000000] (step (bench 0x1F#32 0x8000000#32 [(0#4, 0xAABBCCDD#32), (1#4, 0x3000000#32)]
        [(0x8000000, 0xE1C100B3#32), (0x3000000, 0x0#32)])) =
        some [0x3000000#32, 0x8000004#32, 0x1F#32, 0xCCDD0000#32] ∧
    see [1#4, 15#4] [0x3000000] (step (bench 0x1F#32 0x8000000#32 [(0#4, 0xAABBCCDD#32), (1#4, 0x3000000#32), (2#4, 0x2#32)]
        [(0x8000000, 0xE18100B2#32), (0x3000000, 0x0#32)])) =
        some [0x3000000#32, 0x8000004#32, 0x1F#32, 0xCCDD0000#32] ∧
    see [0#4, 15#4] [] (step (bench 0x1F#32 0x8000000#32 [(1#4, 0x3000000#32)]
        [(0x8000000, 0xE1D100B1#32), (0x3000000, 0x11223344#32)])) =
        some [0x44000033#32, 0x8000004#32, 0x1F#32] ∧
    see [0#4, 15#4] [] (step (bench 0x1F#32 0x8000000#32 [(1#4, 0x3000004#32), (2#4, 0x4#32)]
        [(0x8000000, 0xE11100B2#32), (0x3000000, 0x11223344#32)])) =
        some [0x3344#32, 0x8000004#32, 0x1F#32] ∧
    see [0#4, 15#4] [] (step (bench 0x1F#32 0x8000000#32 [(1#4, 0x3000000#32)]
        [(0x8000000, 0xE1D100D3#32), (0x3000000, 0x80000000#32)])) =
        some [0xFFFFFF80#32, 0x8000004#32, 0x1F#32] ∧
    see [0#4, 15#4] [] (step (bench 0x1F#32 0x8000000#32 [(1#4, 0x3000000#32), (2#4, 0x3#32)]
        [(0x8000000, 0xE19100D2#32), (0x3000000, 0x80000000#32)])) =
        some [0xFFFFFF80#32, 0x8000004#32, 0x1F#32] ∧
    see [0#4, 15#4] [] (step (bench 0x1F#32 0x8000000#32 [(1#4, 0x3000000#32)]
        [(0x8000000, 0xE1D100F3#32), (0x3000000, 0x80000000#32)])) =
        some [0xFFFFFF80#32, 0x8000004#32, 0x1F#32] ∧
    see [0#4, 15#4] [] (step (bench 0x1F#32 0x8000000#32 [(1#4, 0x3000000#32), (2#4, 0x2#32)]
        [(0x8000000, 0xE19100F2#32), (0x3000000, 0x80000000#32)])) =
        some [0xFFFF8000#32, 0x8000004#32, 0x1F#32] := by decide +kernel

/-- The examples of R540; R540; R543; R560; R561. -/
theorem test_arm_blocks_and_swaps :
    see [0#4, 1#4, 2#4, 3#4, 15#4] [] (step (bench 0x1F#32 0x8000000#32 [(0#4, 0x3000000#32)]
        [(0x8000000, 0xE8B0000E#32), (0x3000000, 0x1#32), (0x3000004, 0x2#32), (0x3000008, 0x3#32)])) =
        some [0x300000C#32, 0x1#32, 0x2#32, 0x3#32, 0x8000004#32, 0x1F#32] ∧
    see [1#4, 2#4, 15#4] [] (step (bench 0x1F#32 0x8000000#32 [(0#4, 0x3000008#32)]
        [(0x8000000, 0xE8100006#32), (0x3000000, 0x1#32), (0x3000004, 0x2#32), (0x3000008, 0x3#32)])) =
        some [0x2#32, 0x3#32, 0x8000004#32, 0x1F#32] ∧
    see [13#4, 15#4] [0x30000F4, 0x30000F8, 0x30000FC] (step (bench 0x1F#32 0x8000000#32 [(0#4, 0x5#32), (1#4, 0x6#32), (14#4, 0x7#32), (13#4, 0x3000100#32)]
        [(0x8000000, 0xE92D4003#32)])) =
        some [0x30000F4#32, 0x8000004#32, 0x1F#32, 0x5#32, 0x6#32, 0x7#32] ∧
    see [0#4, 15#4] [0x3000000] (step (bench 0x1F#32 0x8000000#32 [(1#4, 0xDEADBEEF#32), (2#4, 0x3000000#32)]
        [(0x8000000, 0xE1020091#32), (0x3000000, 0x11223344#32)])) =
        some [0x11223344#32, 0x8000004#32, 0x1F#32, 0xDEADBEEF#32] ∧
    see [0#4, 15#4] [0x3000000] (step (bench 0x1F#32 0x8000000#32 [(1#4, 0xDEADBEEF#32), (2#4, 0x3000001#32)]
        [(0x8000000, 0xE1420091#32), (0x3000000, 0x11223344#32)])) =
        some [0x33#32, 0x8000004#32, 0x1F#32, 0x1122EF44#32] := by decide +kernel

/-- The examples of R570; R570; R571; R575; R580. -/
theorem test_arm_branches :
    see [15#4] [] (step (bench 0x1F#32 0x8000000#32 []
        [(0x8000000, 0xEA00003E#32)])) =
        some [0x8000100#32, 0x1F#32] ∧
    see [15#4] [] (step (bench 0x1F#32 0x8000000#32 []
        [(0x8000000, 0xA000002#32)])) =
        some [0x8000004#32, 0x1F#32] ∧
    see [14#4, 15#4] [] (step (bench 0x1F#32 0x8000000#32 []
        [(0x8000000, 0xEB0003FE#32)])) =
        some [0x8000004#32, 0x8001000#32, 0x1F#32] ∧
    see [15#4] [] (step (bench 0x1F#32 0x8000000#32 [(0#4, 0x8000201#32)]
        [(0x8000000, 0xE12FFF10#32)])) =
        some [0x8000200#32, 0x3F#32] ∧
    see [14#4, 15#4] [] (step (bench 0x6000001F#32 0x8000000#32 []
        [(0x8000000, 0xEF000005#32)])) =
        some [0x8000004#32, 0x8#32, 0x60000093#32] := by decide +kernel

/-- The examples of R600; R600; R601; R602; R622; R623; R624; R627. -/
theorem test_thumb_shifts :
    see [0#4, 15#4] [] (step (bench 0x3F#32 0x8000100#32 [(1#4, 0xF0000001#32)]
        [(0x8000100, 0x108#32)])) =
        some [0x10#32, 0x8000102#32, 0x2000003F#32] ∧
    see [0#4, 15#4] [] (step (bench 0x2000003F#32 0x8000100#32 [(1#4, 0x80000000#32)]
        [(0x8000100, 0x8#32)])) =
        some [0x80000000#32, 0x8000102#32, 0xA000003F#32] ∧
    see [0#4, 15#4] [] (step (bench 0x3F#32 0x8000100#32 [(1#4, 0x80000000#32)]
        [(0x8000100, 0x808#32)])) =
        some [0x0#32, 0x8000102#32, 0x6000003F#32] ∧
    see [0#4, 15#4] [] (step (bench 0x3F#32 0x8000100#32 [(1#4, 0x80000000#32)]
        [(0x8000100, 0x1008#32)])) =
        some [0xFFFFFFFF#32, 0x8000102#32, 0xA000003F#32] ∧
    see [0#4, 15#4] [] (step (bench 0x2000003F#32 0x8000100#32 [(0#4, 0x1#32), (1#4, 0x21#32)]
        [(0x8000100, 0x4088#32)])) =
        some [0x0#32, 0x8000102#32, 0x4000003F#32] ∧
    see [0#4, 15#4] [] (step (bench 0x3F#32 0x8000100#32 [(0#4, 0x80000000#32), (1#4, 0x20#32)]
        [(0x8000100, 0x40C8#32)])) =
        some [0x0#32, 0x8000102#32, 0x6000003F#32] ∧
    see [0#4, 15#4] [] (step (bench 0x3F#32 0x8000100#32 [(0#4, 0x80000000#32), (1#4, 0x28#32)]
        [(0x8000100, 0x4108#32)])) =
        some [0xFFFFFFFF#32, 0x8000102#32, 0xA000003F#32] ∧
    see [0#4, 15#4] [] (step (bench 0x2000003F#32 0x8000100#32 [(0#4, 0x12345678#32), (1#4, 0x8#32)]
        [(0x8000100, 0x41C8#32)])) =
        some [0x78123456#32, 0x8000102#32, 0x3F#32] := by decide +kernel

/-- The examples of R605; R606; R607; R608; R612; R613; R625; R626; R629. -/
theorem test_thumb_adds :
    see [0#4, 15#4] [] (step (bench 0x3F#32 0x8000100#32 [(1#4, 0xFFFFFFFF#32), (2#4, 0x1#32)]
        [(0x8000100, 0x1888#32)])) =
        some [0x0#32, 0x8000102#32, 0x6000003F#32] ∧
    see [0#4, 15#4] [] (step (bench 0x3F#32 0x8000100#32 [(1#4, 0x7FFFFFFC#32)]
        [(0x8000100, 0x1DC8#32)])) =
        some [0x80000003#32, 0x8000102#32, 0x9000003F#32] ∧
    see [0#4, 15#4] [] (step (bench 0x3F#32 0x8000100#32 [(1#4, 0x0#32), (2#4, 0x1#32)]
        [(0x8000100, 0x1A88#32)])) =
        some [0xFFFFFFFF#32, 0x8000102#32, 0x8000003F#32] ∧
    see [0#4, 15#4] [] (step (bench 0x3F#32 0x8000100#32 [(1#4, 0x1#32)]
        [(0x8000100, 0x1E48#32)])) =
        some [0x0#32, 0x8000102#32, 0x6000003F#32] ∧
    see [0#4, 15#4] [] (step (bench 0x3F#32 0x8000100#32 [(0#4, 0xFFFFFFFF#32)]
        [(0x8000100, 0x3001#32)])) =
        some [0x0#32, 0x8000102#32, 0x6000003F#32] ∧
    see [0#4, 15#4] [] (step (bench 0x3F#32 0x8000100#32 [(0#4, 0x80000000#32)]
        [(0x8000100, 0x3801#32)])) =
        some [0x7FFFFFFF#32, 0x8000102#32, 0x3000003F#32] ∧
    see [0#4, 15#4] [] (step (bench 0x2000003F#32 0x8000100#32 [(0#4, 0x1#32), (1#4, 0x1#32)]
        [(0x8000100, 0x4148#32)])) =
        some [0x3#32, 0x8000102#32, 0x3F#32] ∧
    see [0#4, 15#4] [] (step (bench 0x3F#32 0x8000100#32 [(0#4, 0x5#32), (1#4, 0x5#32)]
        [(0x8000100, 0x4188#32)])) =
        some [0xFFFFFFFF#32, 0x8000102#32, 0x8000003F#32] ∧
    see [0#4, 15#4] [] (step (bench 0x3F#32 0x8000100#32 [(1#4, 0x80000000#32)]
        [(0x8000100, 0x4248#32)])) =
        some [0x80000000#32, 0x8000102#32, 0x9000003F#32] := by decide +kernel

/-- The examples of R610; R620; R621; R632; R634; R635. -/
theorem test_thumb_logic :
    see [0#4, 15#4] [] (step (bench 0xF000003F#32 0x8000100#32 []
        [(0x8000100, 0x20FF#32)])) =
        some [0xFF#32, 0x8000102#32, 0x3000003F#32] ∧
    see [0#4, 15#4] [] (step (bench 0x3000003F#32 0x8000100#32 [(0#4, 0xFF00FF00#32), (1#4, 0xFF00FF0#32)]
        [(0x8000100, 0x4008#32)])) =
        some [0xF000F00#32, 0x8000102#32, 0x3000003F#32] ∧
    see [0#4, 15#4] [] (step (bench 0x3F#32 0x8000100#32 [(0#4, 0xFF#32), (1#4, 0xFF#32)]
        [(0x8000100, 0x4048#32)])) =
        some [0x0#32, 0x8000102#32, 0x4000003F#32] ∧
    see [0#4, 15#4] [] (step (bench 0x3F#32 0x8000100#32 [(0#4, 0xF0#32), (1#4, 0xF#32)]
        [(0x8000100, 0x4308#32)])) =
        some [0xFF#32, 0x8000102#32, 0x3F#32] ∧
    see [0#4, 15#4] [] (step (bench 0x3F#32 0x8000100#32 [(0#4, 0xFF#32), (1#4, 0xF#32)]
        [(0x8000100, 0x4388#32)])) =
        some [0xF0#32, 0x8000102#32, 0x3F#32] ∧
    see [0#4, 15#4] [] (step (bench 0x3F#32 0x8000100#32 []
        [(0x8000100, 0x43C8#32)])) =
        some [0xFFFFFFFF#32, 0x8000102#32, 0x8000003F#32] := by decide +kernel

/-- The examples of R611; R628; R630; R631; R641. -/
theorem test_thumb_compares :
    see [0#4, 15#4] [] (step (bench 0x3F#32 0x8000100#32 [(0#4, 0xA#32)]
        [(0x8000100, 0x280A#32)])) =
        some [0xA#32, 0x8000102#32, 0x6000003F#32] ∧
    see [0#4, 15#4] [] (step (bench 0x3F#32 0x8000100#32 [(0#4, 0xF0#32), (1#4, 0xF#32)]
        [(0x8000100, 0x4208#32)])) =
        some [0xF0#32, 0x8000102#32, 0x4000003F#32] ∧
    see [0#4, 15#4] [] (step (bench 0x3F#32 0x8000100#32 [(0#4, 0x1#32), (1#4, 0x2#32)]
        [(0x8000100, 0x4288#32)])) =
        some [0x1#32, 0x8000102#32, 0x8000003F#32] ∧
    see [0#4, 15#4] [] (step (bench 0x3F#32 0x8000100#32 [(0#4, 0x80000000#32), (1#4, 0x80000000#32)]
        [(0x8000100, 0x42C8#32)])) =
        some [0x80000000#32, 0x8000102#32, 0x7000003F#32] ∧
    see [0#4, 15#4] [] (step (bench 0x3F#32 0x8000100#32 [(0#4, 0x5#32), (8#4, 0x5#32)]
        [(0x8000100, 0x4580#32)])) =
        some [0x5#32, 0x8000102#32, 0x6000003F#32] := by decide +kernel

/-- The examples of R640; R642; R645; R646; R650. -/
theorem test_thumb_high_registers_and_addresses :
    see [8#4, 15#4] [] (step (bench 0x3F#32 0x8000100#32 []
        [(0x8000100, 0x44F8#32)])) =
        some [0x8000104#32, 0x8000102#32, 0x3F#32] ∧
    see [15#4] [] (step (bench 0x3F#32 0x8000100#32 [(9#4, 0x8000201#32)]
        [(0x8000100, 0x46CF#32)])) =
        some [0x8000200#32, 0x3F#32] ∧
    see [0#4, 15#4] [] (step (bench 0x3F#32 0x8000102#32 []
        [(0x8000100, 0xA0020000#32)])) =
        some [0x800010C#32, 0x8000104#32, 0x3F#32] ∧
    see [0#4, 15#4] [] (step (bench 0x3F#32 0x8000100#32 [(13#4, 0x3007F00#32)]
        [(0x8000100, 0xA802#32)])) =
        some [0x3007F08#32, 0x8000102#32, 0x3F#32] ∧
    see [13#4, 15#4] [] (step (bench 0x3F#32 0x8000100#32 [(13#4, 0x3007F00#32)]
        [(0x8000100, 0xB084#32)])) =
        some [0x3007EF0#32, 0x8000102#32, 0x3F#32] := by decide +kernel

/-- The examples of R670; R677; R678; R681; R682; R683; R686; R688; R691; R696. -/
theorem test_thumb_loads :
    see [0#4, 15#4] [] (step (bench 0x3F#32 0x8000102#32 []
        [(0x8000100, 0x48020000#32), (0x800010C, 0xCAFEBABE#32)])) =
        some [0xCAFEBABE#32, 0x8000104#32, 0x3F#32] ∧
    see [0#4, 15#4] [] (step (bench 0x3F#32 0x8000100#32 [(1#4, 0x3000000#32), (2#4, 0x1#32)]
        [(0x8000100, 0x5888#32), (0x3000000, 0x11223344#32)])) =
        some [0x44112233#32, 0x8000102#32, 0x3F#32] ∧
    see [0#4, 15#4] [] (step (bench 0x3F#32 0x8000100#32 [(1#4, 0x3000000#32), (2#4, 0x3#32)]
        [(0x8000100, 0x5C88#32), (0x3000000, 0x11223344#32)])) =
        some [0x11#32, 0x8000102#32, 0x3F#32] ∧
    see [0#4, 15#4] [] (step (bench 0x3F#32 0x8000100#32 [(1#4, 0x3000000#32), (2#4, 0x1#32)]
        [(0x8000100, 0x5A88#32), (0x3000000, 0x11223344#32)])) =
        some [0x44000033#32, 0x8000102#32, 0x3F#32] ∧
    see [0#4, 15#4] [] (step (bench 0x3F#32 0x8000100#32 [(1#4, 0x3000000#32), (2#4, 0x3#32)]
        [(0x8000100, 0x5688#32), (0x3000000, 0x80000000#32)])) =
        some [0xFFFFFF80#32, 0x8000102#32, 0x3F#32] ∧
    see [0#4, 15#4] [] (step (bench 0x3F#32 0x8000100#32 [(1#4, 0x3000000#32), (2#4, 0x2#32)]
        [(0x8000100, 0x5E88#32), (0x3000000, 0x80000000#32)])) =
        some [0xFFFF8000#32, 0x8000102#32, 0x3F#32] ∧
    see [0#4, 15#4] [] (step (bench 0x3F#32 0x8000100#32 [(1#4, 0x3000000#32)]
        [(0x8000100, 0x6848#32), (0x3000004, 0x55667788#32)])) =
        some [0x55667788#32, 0x8000102#32, 0x3F#32] ∧
    see [0#4, 15#4] [] (step (bench 0x3F#32 0x8000100#32 [(1#4, 0x3000000#32)]
        [(0x8000100, 0x7848#32), (0x3000000, 0x11223344#32)])) =
        some [0x33#32, 0x8000102#32, 0x3F#32] ∧
    see [0#4, 15#4] [] (step (bench 0x3F#32 0x8000100#32 [(1#4, 0x3000000#32)]
        [(0x8000100, 0x8FC8#32), (0x300003C, 0x11223344#32)])) =
        some [0x1122#32, 0x8000102#32, 0x3F#32] ∧
    see [0#4, 15#4] [] (step (bench 0x3F#32 0x8000100#32 [(13#4, 0x3000000#32)]
        [(0x8000100, 0x98FF#32), (0x30003FC, 0x12345678#32)])) =
        some [0x12345678#32, 0x8000102#32, 0x3F#32] := by decide +kernel

/-- The examples of R675; R676; R680; R685; R687; R690; R695. -/
theorem test_thumb_stores :
    see [15#4] [0x3000004] (step (bench 0x3F#32 0x8000100#32 [(0#4, 0xAABBCCDD#32), (1#4, 0x3000000#32), (2#4, 0x5#32)]
        [(0x8000100, 0x5088#32)])) =
        some [0x8000102#32, 0x3F#32, 0xAABBCCDD#32] ∧
    see [15#4] [0x3000004] (step (bench 0x3F#32 0x8000100#32 [(0#4, 0xAABBCCDD#32), (1#4, 0x3000000#32), (2#4, 0x5#32)]
        [(0x8000100, 0x5488#32), (0x3000004, 0x0#32)])) =
        some [0x8000102#32, 0x3F#32, 0xDD00#32] ∧
    see [15#4] [0x3000000] (step (bench 0x3F#32 0x8000100#32 [(0#4, 0xAABBCCDD#32), (1#4, 0x3000000#32), (2#4, 0x2#32)]
        [(0x8000100, 0x5288#32), (0x3000000, 0x0#32)])) =
        some [0x8000102#32, 0x3F#32, 0xCCDD0000#32] ∧
    see [15#4] [0x3000004] (step (bench 0x3F#32 0x8000100#32 [(0#4, 0xAABBCCDD#32), (1#4, 0x3000000#32)]
        [(0x8000100, 0x6048#32)])) =
        some [0x8000102#32, 0x3F#32, 0xAABBCCDD#32] ∧
    see [15#4] [0x300001C] (step (bench 0x3F#32 0x8000100#32 [(0#4, 0xAABBCCDD#32), (1#4, 0x3000000#32)]
        [(0x8000100, 0x77C8#32), (0x300001C, 0x0#32)])) =
        some [0x8000102#32, 0x3F#32, 0xDD000000#32] ∧
    see [15#4] [0x3000000] (step (bench 0x3F#32 0x8000100#32 [(0#4, 0xAABBCCDD#32), (1#4, 0x3000000#32)]
        [(0x8000100, 0x8048#32), (0x3000000, 0x0#32)])) =
        some [0x8000102#32, 0x3F#32, 0xCCDD0000#32] ∧
    see [15#4] [0x3000108] (step (bench 0x3F#32 0x8000100#32 [(0#4, 0xAABBCCDD#32), (13#4, 0x3000100#32)]
        [(0x8000100, 0x9002#32)])) =
        some [0x8000102#32, 0x3F#32, 0xAABBCCDD#32] := by decide +kernel

/-- The examples of R700; R701; R705; R706; R706. -/
theorem test_thumb_blocks :
    see [13#4, 15#4] [0x30000F4, 0x30000F8, 0x30000FC] (step (bench 0x3F#32 0x8000100#32 [(0#4, 0x1#32), (1#4, 0x2#32), (14#4, 0x8000201#32), (13#4, 0x3000100#32)]
        [(0x8000100, 0xB503#32)])) =
        some [0x30000F4#32, 0x8000102#32, 0x3F#32, 0x1#32, 0x2#32, 0x8000201#32] ∧
    see [0#4, 1#4, 13#4, 15#4] [] (step (bench 0x3F#32 0x8000100#32 [(13#4, 0x30000F4#32)]
        [(0x8000100, 0xBD03#32), (0x30000F4, 0x1#32), (0x30000F8, 0x2#32), (0x30000FC, 0x8000301#32)])) =
        some [0x1#32, 0x2#32, 0x3000100#32, 0x8000300#32, 0x3F#32] ∧
    see [0#4, 15#4] [0x3000000, 0x3000004] (step (bench 0x3F#32 0x8000100#32 [(0#4, 0x3000000#32), (1#4, 0x9#32)]
        [(0x8000100, 0xC003#32)])) =
        some [0x3000008#32, 0x8000102#32, 0x3F#32, 0x3000000#32, 0x9#32] ∧
    see [0#4, 1#4, 2#4, 15#4] [] (step (bench 0x3F#32 0x8000100#32 [(0#4, 0x3000000#32)]
        [(0x8000100, 0xC806#32), (0x3000000, 0x7#32), (0x3000004, 0x8#32)])) =
        some [0x3000008#32, 0x7#32, 0x8#32, 0x8000102#32, 0x3F#32] ∧
    see [0#4, 1#4, 15#4] [] (step (bench 0x3F#32 0x8000100#32 [(0#4, 0x3000000#32)]
        [(0x8000100, 0xC803#32), (0x3000000, 0x7#32), (0x3000004, 0x8#32)])) =
        some [0x7#32, 0x8#32, 0x8000102#32, 0x3F#32] := by decide +kernel

/-- The examples of R730; R730; R731; R735; R741; R741: target r14 + 2 * 0x77E; R745. -/
theorem test_thumb_branches :
    see [15#4] [] (step (bench 0x4000003F#32 0x8000100#32 []
        [(0x8000100, 0xD006#32)])) =
        some [0x8000110#32, 0x4000003F#32] ∧
    see [15#4] [] (step (bench 0x3F#32 0x8000100#32 []
        [(0x8000100, 0xD006#32)])) =
        some [0x8000102#32, 0x3F#32] ∧
    see [15#4] [] (step (bench 0x3F#32 0x8000100#32 []
        [(0x8000100, 0xE7FE#32)])) =
        some [0x8000100#32, 0x3F#32] ∧
    see [15#4] [] (step (bench 0x3F#32 0x8000100#32 [(0#4, 0x8000200#32)]
        [(0x8000100, 0x4700#32)])) =
        some [0x8000200#32, 0x1F#32] ∧
    see [14#4, 15#4] [] (step (bench 0x3F#32 0x8000100#32 []
        [(0x8000100, 0xF7FF#32)])) =
        some [0x7FFF104#32, 0x8000102#32, 0x3F#32] ∧
    see [14#4, 15#4] [] (step (bench 0x3F#32 0x8000102#32 [(14#4, 0x8000102#32)]
        [(0x8000100, 0xFF7E0000#32)])) =
        some [0x8000105#32, 0x8000FFE#32, 0x3F#32] ∧
    see [14#4, 15#4] [] (step (bench 0x3F#32 0x8000100#32 []
        [(0x8000100, 0xDF05#32)])) =
        some [0x8000102#32, 0x8#32, 0x93#32] := by decide +kernel

/-- R470 and R633: the low product, N and Z; C is free. R466: Rd = Rm faults. -/
theorem test_mul :
    (match step (bench 0x1F#32 0x08000000#32 [(1#4, 0xFFFFFFFF#32), (2#4, 5#32)] [(0x08000000, 0xE0100291#32)]) with
      | .next t => some (t.reg 0#32 0#4, t.cpu.cpsr.n, t.cpu.cpsr.z, t.cpu.cpsr.v)
      | _ => none) = some (0xFFFFFFFB#32, true, false, false) ∧
    (match step (bench 0x3F#32 0x08000000#32 [(0#4, 3#32), (1#4, 5#32)] [(0x08000000, 0x4348#32)]) with
      | .next t => some (t.reg 0#32 0#4, t.cpu.cpsr.n, t.cpu.cpsr.z, t.cpu.cpsr.v)
      | _ => none) = some (15#32, false, false, false) ∧
    stopOf (step (bench 0x1F#32 0x08000000#32 [] [(0x08000000, 0xE0010291#32)])) =
      some (.unpredictable 0x08000000#32 0xE0010291#32) := by decide +kernel

/-- R432's example, and R835's two returns by SUBS pc, lr, #4. -/
theorem test_spsr_and_return :
    (match step (bench 0x92#32 0x08000000#32 [(0#4, 0x6000003F#32)] [(0x08000000, 0xE169F000#32)]) with
      | .next t => some (t.cpu.spsr.get 1).toWord
      | _ => none) = some 0x6000003F#32 ∧
    see [15#4] [] (step (withSpsr 0x1F#32 (bench 0x92#32 0x08000000#32 [(14#4, 0x08000108#32)] [(0x08000000, 0xE25EF004#32)]))) =
      some [0x08000104#32, 0x1F#32] ∧
    see [15#4] [] (step (withSpsr 0x3F#32 (bench 0x92#32 0x08000000#32 [(14#4, 0x08000106#32)] [(0x08000000, 0xE25EF004#32)]))) =
      some [0x08000102#32, 0x3F#32] := by decide +kernel

/-- R590 and R280: the illegal rows, whatever their condition; R253: condition 1111; R205: a store into the next slot. -/
theorem test_stops :
    stopOf (step (bench 0x1F#32 0x08000000#32 [] [(0x08000000, 0x0E010203#32)])) =
      some (.illegalInstruction 0x08000000#32 0x0E010203#32) ∧
    stopOf (step (bench 0x3F#32 0x08000000#32 [] [(0x08000000, 0xDE05#32)])) = some (.illegalInstruction 0x08000000#32 0xDE05#32) ∧
    stopOf (step (bench 0x1F#32 0x08000000#32 [] [(0x08000000, 0xF1A00000#32)])) =
      some (.unpredictable 0x08000000#32 0xF1A00000#32) ∧
    stopOf (step (bench 0x1F#32 0x03000000#32 [(1#4, 0x03000004#32)] [(0x03000000, 0xE5810000#32)])) =
      some (.selfModifyHazard 0x03000000#32 0x03000004#32) := by decide +kernel

/-- The bench with only the registers laid marked written (R91). -/
def cold (cpsr : Word) (regs : List (RegNo × Word)) (ws : List (Nat × Word)) : State :=
  let s := bench cpsr 0x08000000#32 [] ws
  lay regs { s with cpu :=
    { s.cpu with written := Vector.replicate 30 false, spsrWritten := Vector.replicate 5 false } }

/-- R369: ADDS r0, r1, r2 without r2, and with both; the same with a condition that fails (R357); STMIB r1, (r0, r2)^ in
IRQ mode reads User's r2; a forbidden MUL r0, r0, r2 is unpredictable first (R466). -/
theorem test_unwritten_register :
    stopOf (step (cold 0x1F#32 [(1#4, 5#32)] [(0x08000000, 0xE0910002#32)])) =
      some (.unwrittenRegister 0x08000000#32 (.general 2)) ∧
    see [0#4] [] (step (cold 0x1F#32 [(1#4, 5#32), (2#4, 3#32)] [(0x08000000, 0xE0910002#32)])) =
      some [8#32, 0x1F#32] ∧
    see [15#4] [] (step (cold 0x1F#32 [] [(0x08000000, 0x00910002#32)])) = some [0x08000004#32, 0x1F#32] ∧
    stopOf (step (cold 0x92#32 [(0#4, 5#32), (1#4, 0x03000000#32)] [(0x08000000, 0xE9C10005#32)])) =
      some (.unwrittenRegister 0x08000000#32 (.general 2)) ∧
    stopOf (step (cold 0x1F#32 [] [(0x08000000, 0xE0000290#32)])) =
      some (.unpredictable 0x08000000#32 0xE0000290#32) := by decide +kernel

/-- R91 and D78: MRS r0, SPSR of an unwritten SPSR; MSR SPSR_f, r0 marks it written and leaves its control field 0. -/
theorem test_unwritten_spsr :
    stopOf (step (cold 0x92#32 [] [(0x08000000, 0xE14F0000#32)])) =
      some (.unwrittenRegister 0x08000000#32 (.saved 1)) ∧
    (match step (cold 0x92#32 [(0#4, 0x6000003F#32)] [(0x08000000, 0xE168F000#32)]) with
      | .next t => some (t.isWritten (.saved 1), (t.cpu.spsr.get 1).toWord)
      | _ => none) = some (true, 0x60000000#32) := by decide +kernel

/-- R409 and R365: MOVS pc, lr with an unwritten lr: an illegal mode in the SPSR is unpredictable first; with a legal one
lr is missed. -/
theorem test_restore_check_first :
    stopOf (step ((cold 0x92#32 [] [(0x08000000, 0xE1B0F00E#32)]).setSpsrOf modeIrq (psr 0#32))) =
      some (.unpredictable 0x08000000#32 0xE1B0F00E#32) ∧
    stopOf (step ((cold 0x92#32 [] [(0x08000000, 0xE1B0F00E#32)]).setSpsrOf modeIrq (psr 0x1F#32))) =
      some (.unwrittenRegister 0x08000000#32 (.general (phys modeIrq 14#4))) := by decide +kernel

/-- R542 and R545: the same for LDMIA sp!, (pc)^ with an unwritten sp. -/
theorem test_restore_check_first_load :
    stopOf (step ((cold 0x92#32 [] [(0x08000000, 0xE8FD8000#32)]).setSpsrOf modeIrq (psr 0#32))) =
      some (.unpredictable 0x08000000#32 0xE8FD8000#32) ∧
    stopOf (step ((cold 0x92#32 [] [(0x08000000, 0xE8FD8000#32)]).setSpsrOf modeIrq (psr 0x1F#32))) =
      some (.unwrittenRegister 0x08000000#32 (.general (phys modeIrq 13#4))) := by decide +kernel

/-- R354: STMIA r1, (r0, r2) whose second word falls on the next instruction leaves the first word stored. -/
theorem test_words_before_hazard_stay :
    leftWords [0x03000000, 0x03000004] (step (bench 0x1F#32 0x03000000#32
        [(0#4, 0x55AA1234#32), (1#4, 0x03000000#32), (2#4, 7#32)]
        [(0x03000000, 0xE8810005#32), (0x03000004, 0xE1A00000#32)])) =
      some [0x55AA1234#32, 0xE1A00000#32] := by decide +kernel

/-- R1061 and D87: with the master enable off, another MIX than the reference is silent too. -/
theorem test_silent_without_master :
    ({ State.reset with params := { State.reset.params with mixing := .other } } : State).mixed = (0, 0) :=
  State.mixed_silent _ rfl

/-- R870: of the triggers held at once, that of the channel with the lowest number runs first. -/
theorem test_held_triggers_by_priority :
    ((State.reset.holdDma 3).holdDma 0).dma.held = [0, 3] := by decide +kernel

/-- R580 and R745: the software interrupt from User mode; R357: its failed condition. -/
theorem test_software_interrupt :
    (match step (bench 0x60000010#32 0x08000000#32 [] [(0x08000000, 0xEF000005#32), (0x8, 0xEAFFFFFE#32)]) with
      | .next t => some (t.cpu.pc, t.cpu.cpsr.toWord, t.reg 0#32 14#4, (t.cpu.spsr.get 2).toWord)
      | _ => none) = some (8#32, 0x60000093#32, 0x08000004#32, 0x60000010#32) ∧
    (match step (bench 0x3F#32 0x08000100#32 [] [(0x08000100, 0xDF05#32)]) with
      | .next t => some (t.cpu.pc, t.cpu.cpsr.toWord, t.reg 0#32 14#4, (t.cpu.spsr.get 2).toWord)
      | _ => none) = some (8#32, 0x93#32, 0x08000102#32, 0x3F#32) ∧
    see [15#4] [] (step (bench 0x1F#32 0x08000000#32 [] [(0x08000000, 0x0F000005#32)])) = some [0x08000004#32, 0x1F#32] := by
  decide +kernel

/-- R831 and R850: an interrupt is taken and the handler's first instruction, here B to itself, runs in the same step. -/
theorem test_irq_entry :
    (match step { bench 0x3F#32 0x08000100#32 [] [(0x18, 0xEAFFFFFE#32)] with irq := ⟨1#14, 1#14, true⟩ } with
      | .next t => some (t.cpu.pc, t.cpu.cpsr.toWord, t.reg 0#32 14#4, (t.cpu.spsr.get 1).toWord)
      | _ => none) = some (0x18#32, 0x92#32, 0x08000104#32, 0x3F#32) := by decide +kernel

/-- A table word runs as the first instruction after reset. -/
theorem test_withFetchWord :
    see [0#4, 15#4] [] (step (State.reset.withFetchWord 32 0xE0910002)) = some [0#32, 4#32, 0x400000D3#32] ∧
    see [0#4, 15#4] [] (step (State.reset.withFetchWord 16 0x20FF)) = some [0xFF#32, 2#32, 0xF3#32] ∧
    decodeTableWord 32 0xE0910002 = some (.add .al true 1#4 0#4 (.regImm 0#5 .lsl 2#4)) ∧
    decodeTableWord 16 0x20FF = some (.tMovImm8 0#3 0xFF#8) ∧ decodeTableWord 32 0xF0000000 = none := by decide +kernel

/-! ### Witnesses: for every statement with hypotheses, a state and operands that meet them together -/

/-- Whether an answer is a next state. -/
def ran : Answer → Bool
  | .next _ => true
  | _ => false

theorem next_of_ran {a : Answer} (h : ran a = true) : ∃ t, a = .next t := by
  cases a with
  | next t => exact ⟨t, rfl⟩
  | fault => cases h
  | refused => cases h

/-- A running machine in a mode, at 0x08000000, with r1 in IWRAM, r2 = 4, r3 = 0 and sp in IWRAM. -/
def at8 (cpsr : Word) (ws : List (Nat × Word)) : State :=
  bench cpsr 0x08000000#32 [(1#4, 0x03000000#32), (2#4, 4#32), (13#4, 0x03007F00#32)] ws

/-- System mode, ARM state. -/
def armState : State := at8 0x1F#32 []

/-- User mode, ARM state. -/
def userState : State := at8 0x10#32 []

/-- System mode, Thumb state. -/
def thumbState : State := at8 0x3F#32 []

/-- IRQ mode, ARM state, with an SPSR. -/
def irqState (spsr : Word) : State := withSpsr spsr (at8 0x92#32 [])

/-- System mode with an enabled interrupt pending. -/
def pendingState : State := { armState with irq := ⟨1#14, 1#14, true⟩ }

/-- A halted machine. -/
def haltedState : State := { armState with halted := true }

theorem witness_EncodeThenDecode :
    (Instr.str .al true false true 1#4 0#4 (.imm 0xFFF#12)).wellFormed = true ∧
    (Instr.str .al false false false 1#4 0#4 (.imm 0#12)).wellFormed = true ∧
    (Instr.tBcond .le 0#8).wellFormed = true := by decide

theorem witness_DecodeThenEncode :
    decodeArm 0xE0203291#32 = .ok (.mla .al false 0#4 3#4 2#4 1#4) ∧ decodeThumb 0x4008#16 = .ok (.tAnd 1#3 0#3) := by
  and_intros <;> rfl

theorem witness_ReservedWordsAreRejected :
    (0xF0000000#32).extractLsb' 28 4 = 15#4 ∧
    ((0x4780#16).extractLsb' 8 8 = 0x47#8 ∧ (0x4780#16).extractLsb' 7 1 ≠ 0#1) ∧
    ((0x4701#16).extractLsb' 8 8 = 0x47#8 ∧ (0x4701#16).extractLsb' 0 3 ≠ 0#3) ∧
    -- illegal: bits 27:22 = 000001, and 27:24 = 0001 with bit 23 or bit 20 set; unpredictable: a swap with bits 11:8 set
    (∀ k : Fin 4,
      let w : Word := [0xE0400091#32, 0xE1800091#32, 0xE1500091#32, 0xE1000191#32][k]
      w.extractLsb' 28 4 ≠ 15#4 ∧ w.extractLsb' 25 3 = 0#3 ∧ w.extractLsb' 4 4 = 0b1001#4 ∧
      w &&& 0x0FC000F0#32 ≠ 0x00000090#32 ∧ w &&& 0x0F8000F0#32 ≠ 0x00800090#32 ∧ w &&& 0x0FB00FF0#32 ≠ 0x01000090#32 ∧
      (w &&& 0x0FB000F0#32 = 0x01000090#32 ↔ k = 3)) := by decide

/-- R254, R272: words of the multiply space outside its rows. -/
theorem test_multiply_space_rejected :
    decodeArm 0xE0400091#32 = .error .illegal ∧ decodeArm 0xE1800091#32 = .error .illegal ∧
    decodeArm 0xE1500091#32 = .error .illegal ∧ decodeArm 0xE1000191#32 = .error .unpredictable := by
  and_intros <;> rfl

theorem witness_StepRunsDecodedInstruction :
    (let r := FaultRecord.illegalInstruction 0#32 0#32; ({ armState with fault := some r }).fault = some r) ∧
    (({ armState with stopped := true }).fault = none ∧ ({ armState with stopped := true }).stopped = true) ∧
    (∀ w : Fin 3,
      let s := at8 0x1F#32 [(0x08000000, [0xE0910002#32, 0xE6000010#32, 0xF0000000#32][w])]
      s.live = true ∧ s.halted = false ∧ (s.irqLine && !s.cpu.cpsr.i) = false) ∧
    decodeFetched false (at8 0x1F#32 [(0x08000000, 0xE0910002#32)]).fetch.1 =
      .ok (.add .al true 1#4 0#4 (.regImm 0#5 .lsl 2#4)) ∧
    (∀ r ∈ (at8 0x1F#32 [(0x08000000, 0xE0910002#32)]).fetched.reads (.add .al true 1#4 0#4 (.regImm 0#5 .lsl 2#4)),
      (at8 0x1F#32 [(0x08000000, 0xE0910002#32)]).fetched.isWritten r = true) ∧
    decodeFetched false (at8 0x1F#32 [(0x08000000, 0xE0400091#32)]).fetch.1 = .error .illegal ∧
    decodeFetched false (at8 0x1F#32 [(0x08000000, 0xF0000000#32)]).fetch.1 = .error .unpredictable := by
  refine ⟨by decide +kernel, by decide +kernel, by decide +kernel, rfl, by decide +kernel, rfl, rfl⟩

/-- The clause of R369: a state in which r1 alone is written, at ADDS r0, r1, r2. -/
theorem witness_StepRunsDecodedInstruction_unwritten :
    let s := cold 0x1F#32 [(1#4, 5#32)] [(0x08000000, 0xE0910002#32)]
    let i := Instr.add .al true 1#4 0#4 (.regImm 0#5 .lsl 2#4)
    (s.live = true ∧ s.halted = false ∧ (s.irqLine && !s.cpu.cpsr.i) = false) ∧
    decodeFetched s.cpu.cpsr.t s.fetch.1 = .ok i ∧
    (i.cond = some .al ∧ condHolds .al s.fetched.cpu.cpsr = true ∧ s.fetched.forbids i = false) ∧
    (StoredReg.general 2 ∈ s.fetched.reads i ∧ s.fetched.isWritten (.general 2) = false) := by
  refine ⟨by decide +kernel, rfl, by decide +kernel, by decide +kernel⟩

theorem witness_FetchReadsCode :
    let pcs : List Word := [0x03000000#32, 0x3FFC#32, 0x4000#32, 0x08000000#32, 0x0DFFFFFC#32, 0x01000000#32]
    let s := fun (thumb : Bool) (k : Fin 6) => bench (if thumb then 0x3F#32 else 0x1F#32) pcs[k] [] []
    (∀ (thumb : Bool) (k : Fin 6), (s thumb k).cpu.cpsr.t = thumb ∧ pcAligned thumb (s thumb k).cpu.pc = true) ∧
    (∀ thumb : Bool, let t := s thumb; let region := fun k => (t k).region (t k).cpu.pc
      (t 0).ramAddress (t 0).cpu.pc = true ∧ (region 1 = .bios ∧ 0x3FFC + 4 ≤ (t 1).biosLen) ∧
      (region 2 = .bios ∧ ¬(0x4000 + 2 ≤ (t 2).biosLen)) ∧
      (∀ k : Fin 6, k = 3 ∨ k = 4 → region k ∈ [Region.rom0, .rom1, .rom2] ∧ (t k).isEepromPort (t k).cpu.pc = false ∧
        (t k).gpio.readable = false) ∧
      region 5 = .unmapped) := by decide +kernel

theorem witness_StepTakesIrq :
    pendingState.live = true ∧ pendingState.halted = false ∧ pendingState.irqLine = true ∧
    pendingState.cpu.cpsr.i = false := by decide +kernel

theorem witness_HaltedStepWaits :
    haltedState.live = true ∧ haltedState.halted = true ∧ ∃ t, step haltedState = .next t :=
  ⟨by decide +kernel, by decide +kernel, next_of_ran (by decide +kernel)⟩

/-- A state that meets the invariant and whose step completes; the other statements about every completed step take
it too. -/
theorem witness_StepKeepsInv :
    let s := at8 0x1F#32 [(0x08000000, 0xE0910002#32)]
    Inv s ∧ ∃ t, step s = .next t := by
  refine ⟨⟨by decide +kernel, by decide +kernel, by decide +kernel, by decide +kernel, ⟨?_, ?_, ?_, ?_, ?_, ?_, ?_⟩⟩,
    next_of_ran ?_⟩ <;> decide +kernel

theorem witness_StepKeepsReadOnlyState :
    readOnlyKey 0 ∧ readOnlyKey 0x3FFF ∧ readOnlyKey 0x08000000 ∧ readOnlyKey 0x09FFFFFF ∧
    ∃ t, step (at8 0x1F#32 [(0x08000000, 0xE5810002#32)]) = .next t :=
  ⟨by simp [readOnlyKey], by simp [readOnlyKey], by simp [readOnlyKey], by simp [readOnlyKey],
    next_of_ran (by decide +kernel)⟩

theorem witness_NoEventDueAfterStep : ∃ t, step (at8 0x1F#32 [(0x08000000, 0xE0910002#32)]) = .next t :=
  next_of_ran (by decide +kernel)

theorem witness_UserModeLeftOnlyBySwi :
    userState.cpu.cpsr.mode = modeUsr ∧ (∃ t, exec (.swi .al 0#24) userState = .next t) ∧
    (∃ t, exec (.msrCpsrImm .al 1#4 0#4 0x12#8) userState = .next t) :=
  ⟨by decide +kernel, next_of_ran (by decide +kernel), next_of_ran (by decide +kernel)⟩

theorem witness_OnlyListedInstructionsBranch :
    let i := Instr.add .al true 1#4 0#4 (.regImm 0#5 .lsl 2#4)
    i.writesPc = false ∧ ∃ t, exec i armState = .next t :=
  ⟨by decide, next_of_ran (by decide +kernel)⟩

theorem witness_FailedConditionOnlyAdvances :
    let i := Instr.swp .eq 1#4 0#4 15#4
    i.cond = some .eq ∧ i.illegalRow = false ∧ armState.cpu.cpsr.t = false ∧
    condHolds .eq armState.cpu.cpsr = false := by decide +kernel

theorem witness_RegisterBanks :
    legalMode modeFiq = true ∧ legalMode modeUsr = true ∧ (8#4 : RegNo) ≠ 15#4 ∧ (14#4 : RegNo) ≠ 15#4 := by decide

theorem witness_ImmediateShifts : (1#5 : BitVec 5) ≠ 0#5 ∧ (31#5 : BitVec 5) ≠ 0#5 := by decide

theorem witness_RegisterShifts : 0 < 1 ∧ 0 < 255 ∧ (14#4 : RegNo) ≠ 15#4 := by decide

/-- Every operand form of data processing meets the common premises. -/
theorem witness_data_processing_premises :
    ArmRuns .al armState ∧ ArmRuns .al (irqState 0x3F#32) ∧
    (∀ op2 ∈ [Operand2.imm 15#4 0xFF#8, .regImm 0#5 .ror 15#4, .regReg 14#4 .lsl 15#4], badShiftAmount op2 = false) ∧
    (14#4 : RegNo) ≠ 15#4 ∧ armState.cpu.cpsr.t = false := by
  unfold ArmRuns; decide +kernel

theorem witness_ArithmeticCompletes :
    ∃ o ∈ arithmeticOps .al true 1#4 0#4 (.regReg 2#4 .lsl 15#4) 1#32 2#32 armState.cpu.cpsr,
      ArmRuns .al armState ∧ badShiftAmount (.regReg 2#4 .lsl 15#4) = false ∧ (0#4 : RegNo) ≠ 15#4 ∧
      o.1 = .sub .al true 1#4 0#4 (.regReg 2#4 .lsl 15#4) := by
  refine ⟨_, .head _, ?_⟩; unfold ArmRuns; decide +kernel

theorem witness_LogicalCompletes :
    ∃ o ∈ logicalOps .al true 1#4 0#4 (.imm 4#4 0xFF#8) 1#32 2#32,
      ArmRuns .al armState ∧ badShiftAmount (.imm 4#4 0xFF#8) = false ∧ (0#4 : RegNo) ≠ 15#4 ∧ o.2 = 0#32 := by
  refine ⟨_, .head _, ?_⟩; unfold ArmRuns; decide +kernel

theorem witness_CompareCompletes :
    ∃ o ∈ compareOps .al 1#4 15#4 (.imm 0#4 1#8) 1#32 1#32 false armState.cpu.cpsr,
      ArmRuns .al armState ∧ badShiftAmount (.imm 0#4 1#8) = false ∧ o.2.z = false := by
  refine ⟨_, .head _, ?_⟩; unfold ArmRuns; decide +kernel

theorem witness_DataProcessingBranches :
    ∃ o ∈ resultOps .al false 1#4 15#4 (.imm 0#4 4#8) 9#32 4#32 armState.cpu.cpsr,
      ArmRuns .al armState ∧ badShiftAmount (.imm 0#4 4#8) = false ∧ o.2 = 5#32 := by
  refine ⟨_, .head _, ?_⟩; unfold ArmRuns; decide +kernel

theorem witness_DataProcessingReturns :
    (∃ o ∈ resultOps .al true 14#4 15#4 (.imm 0#4 4#8) 9#32 4#32 armState.cpu.cpsr,
      ArmRuns .al armState ∧ badShiftAmount (.imm 0#4 4#8) = false ∧ o.2 = 5#32) ∧
    spsrIndex armState.cpu.cpsr.mode = none ∧
    (ArmRuns .al (irqState 0#32) ∧ spsrIndex (irqState 0#32).cpu.cpsr.mode = some 1 ∧
      legalMode ((irqState 0#32).cpu.spsr.get 1).mode = false) ∧
    (ArmRuns .al (irqState 0x3F#32) ∧ spsrIndex (irqState 0x3F#32).cpu.cpsr.mode = some 1 ∧
      legalMode ((irqState 0x3F#32).cpu.spsr.get 1).mode = true) := by
  refine ⟨⟨_, .head _, ?_⟩, ?_⟩ <;> unfold ArmRuns <;> decide +kernel

theorem witness_ShiftAmountInR15Faults :
    ArmRuns .al armState ∧
    Instr.mov .al true 0#4 15#4 (.regReg 15#4 .lsl 2#4) ∈
      (resultOps .al true 0#4 15#4 (.regReg 15#4 .lsl 2#4) 0#32 0#32 armState.cpu.cpsr).map (·.1) := by
  unfold ArmRuns; decide +kernel

theorem witness_MrsReadsStatus :
    ArmRuns .al armState ∧ spsrIndex armState.cpu.cpsr.mode = none ∧ (0#4 : RegNo) ≠ 15#4 ∧
    ArmRuns .al (irqState 0x3F#32) ∧ (irqState 0x3F#32).spsr = some (psr 0x3F#32) := by
  unfold ArmRuns; decide +kernel

theorem witness_MsrWritesCpsr :
    ArmRuns .al armState ∧ ArmRuns .al userState ∧
    -- a control write asks for a mode that is none, for Thumb state, and for User mode
    ((9#4 : BitVec 4).getLsbD 0 = true ∧ armState.cpu.cpsr.mode ≠ modeUsr) ∧
    legalMode ((rotatedImm 0#4 0x00#8).extractLsb' 0 5) = false ∧ (rotatedImm 0#4 0x30#8).getLsbD 5 = true ∧
    (legalMode ((rotatedImm 0#4 0x10#8).extractLsb' 0 5) = true ∧ (rotatedImm 0#4 0x10#8).getLsbD 5 = false) ∧
    -- no control write: User mode, or the mask asks for the flags alone
    ¬((9#4 : BitVec 4).getLsbD 0 = true ∧ userState.cpu.cpsr.mode ≠ modeUsr) ∧
    ¬((8#4 : BitVec 4).getLsbD 0 = true ∧ armState.cpu.cpsr.mode ≠ modeUsr) := by
  unfold ArmRuns; decide +kernel

theorem witness_MsrWritesSpsr :
    ArmRuns .al armState ∧ spsrIndex armState.cpu.cpsr.mode = none ∧ ArmRuns .al (irqState 0#32) ∧
    spsrIndex (irqState 0#32).cpu.cpsr.mode = some 1 ∧ (0#4 : RegNo) ≠ 15#4 := by
  unfold ArmRuns; decide +kernel

theorem witness_MultiplyCompletes :
    (ArmRuns .al armState ∧ ¬MulForbidden 3#4 1#4 [2#4] ∧ ¬MulForbidden 3#4 1#4 [14#4, 2#4]) ∧
    thumbState.cpu.cpsr.t = true ∧ (1#3 : LowReg) ≠ 0#3 := by
  unfold ArmRuns MulForbidden; decide +kernel

theorem witness_LongMultiplyCompletes : ArmRuns .al armState ∧ ¬MulLongForbidden 1#4 0#4 3#4 2#4 := by
  unfold ArmRuns MulLongForbidden; decide +kernel

theorem witness_MultiplyOperandFaults :
    ArmRuns .al armState ∧ MulForbidden 1#4 1#4 [2#4] ∧ MulForbidden 3#4 1#4 [15#4, 2#4] ∧
    MulLongForbidden 1#4 1#4 3#4 2#4 ∧ thumbState.cpu.cpsr.t = true := by
  unfold ArmRuns MulForbidden MulLongForbidden; decide +kernel

theorem witness_LoadsComplete :
    ArmRuns .al armState ∧ (0#4 : RegNo) ≠ 15#4 ∧
    ∀ o ∈ armLoads armState .al true true true 1#4 0#4 2#4 (.reg 0#5 .lsr 2#4) 0xFF#8, ¬o.2.2.2 := by
  unfold ArmRuns; refine ⟨by decide +kernel, by decide, ?_⟩
  simp [armLoads, SingleForbidden, HalfForbidden]

theorem witness_LoadToR15Branches :
    ArmRuns .al armState ∧ ¬SingleForbidden true false true true 1#4 15#4 (.imm 4#12) ∧
    ¬SingleForbidden true false false true 1#4 15#4 (.imm 4#12) ∧ armState.ramAddress 0x03000004#32 = true := by
  unfold ArmRuns; refine ⟨by decide +kernel, ?_, ?_, by decide +kernel⟩ <;> simp [SingleForbidden]

theorem witness_StoresComplete :
    ArmRuns .al armState ∧ armState.dma.held = [] ∧
    ∀ o ∈ armStores armState .al true true true 1#4 15#4 2#4 (.imm 4#12) 4#8,
      (o.1 ≠ .strhReg .al true true true 1#4 15#4 2#4 → o.1 ≠ .strhImm .al true true true 1#4 15#4 4#8 → ¬o.2.2.2) ∧
      armState.plainStore o.2.1.addr o.2.2.1 = true := by
  refine ⟨by unfold ArmRuns; decide +kernel, by decide +kernel, ?_⟩
  simp only [armStores, List.mem_cons, List.not_mem_nil, or_false]
  rintro o (rfl | rfl | rfl | rfl | rfl | rfl) <;> refine ⟨by simp [SingleForbidden], by decide +kernel⟩

theorem witness_StoresComplete_halfwords :
    ∀ o ∈ armStores armState .al false false false 1#4 0#4 2#4 (.imm 4#12) 4#8,
      ¬o.2.2.2 ∧ armState.plainStore o.2.1.addr o.2.2.1 = true := by
  simp only [armStores, List.mem_cons, List.not_mem_nil, or_false]
  rintro o (rfl | rfl | rfl | rfl | rfl | rfl) <;>
    refine ⟨by simp [SingleForbidden, HalfForbidden], by decide +kernel⟩

/-- A store hits the window, a store to save memory faults, and one completes: each in ARM and Thumb state. -/
theorem witness_StoresGoThroughTheBus :
    ArmRuns .al armState ∧ thumbState.cpu.cpsr.t = true ∧
    ¬SingleForbidden false false true false 1#4 0#4 (.imm 0#12) ∧
    armState.storeWindow.hit 0x08000001#32 4 = true ∧ armState.storeWindow.hit 0x0800000B#32 1 = true ∧
    armState.storeWindow.hit 0x0800000C#32 4 = false ∧ armState.storeWindow.hit 0x08000000#32 4 = false ∧
    thumbState.storeWindow.hit 0x08000005#32 1 = true ∧ thumbState.storeWindow.hit 0x08000006#32 2 = false ∧
    (∃ f, (armState.billCode false).memWrite 0x0E000000#32 .word 0#32 false = .error f) ∧
    (∃ u, (armState.billCode false).memWrite 0x03000000#32 .word 0#32 false = .ok u) ∧
    (∃ u, (thumbState.billCode false).memWrite 0x04000204#32 .half 0#32 false = .ok u) := by
  refine ⟨by unfold ArmRuns; decide +kernel, by decide +kernel, by simp [SingleForbidden], by decide +kernel,
    by decide +kernel, by decide +kernel, by decide +kernel, by decide +kernel, by decide +kernel, ⟨_, rfl⟩, ⟨_, rfl⟩,
    ⟨_, rfl⟩⟩

/-- STMIA r1, (r0, r2) at its own base: word 0 is plain, word 1 falls on the next instruction. -/
theorem witness_StoresGoThroughTheBus_block :
    let s := bench 0x1F#32 0x03000000#32 [(1#4, 0x03000000#32)] []
    let start := blockStart false true (s.regOf modeSys 1#4) (regList 5#16).length
    ArmRuns .al s ∧ ¬StoreBlockForbidden s false false 1#4 5#16 ∧ s.dma.held = [] ∧ 1 < (regList 5#16).length ∧
    s.plainStores (wordAddresses 1 start) = true ∧
    s.storeWindow.hit (Width.word.align (start + fourTimes 1)) 4 = true := by
  refine ⟨by unfold ArmRuns; decide +kernel, ?_, by decide +kernel, by decide, by decide +kernel, by decide +kernel⟩
  simp [StoreBlockForbidden, BlockForbidden]

theorem witness_TransferOperandFaults :
    ArmRuns .al armState ∧
    (∀ o ∈ armLoads armState .al false true true 1#4 1#4 2#4 (.imm 4#12) 4#8, o.2.2.2) ∧
    (∀ o ∈ armStores armState .al false true false 15#4 0#4 2#4 (.imm 4#12) 4#8, o.2.2.2) ∧
    LoadBlockForbidden armState false true 1#4 2#16 ∧ StoreBlockForbidden armState false true 1#4 3#16 ∧
    LoadBlockForbidden armState false false 1#4 0#16 ∧ StoreBlockForbidden armState true false 1#4 1#16 := by
  refine ⟨by unfold ArmRuns; decide +kernel, by simp [armLoads, SingleForbidden, HalfForbidden],
    by simp [armStores, SingleForbidden, HalfForbidden], by simp [LoadBlockForbidden], ?_,
    by simp [LoadBlockForbidden, BlockForbidden], ?_⟩
  · exact .inr ⟨rfl, by decide, 0, by decide, by decide⟩
  · exact .inl (.inr (.inr (.inr ⟨rfl, by decide +kernel⟩)))

theorem witness_SwapCompletes :
    ArmRuns .al armState ∧ (3#4 : RegNo) ≠ 15#4 ∧ (2#4 : RegNo) ≠ 15#4 ∧ (1#4 : RegNo) ≠ 15#4 ∧ (1#4 : RegNo) ≠ 3#4 ∧
    (1#4 : RegNo) ≠ 2#4 ∧ armState.dma.held = [] ∧ armState.plainStore (armState.regOf modeSys 1#4) .word = true ∧
    armState.plainStore (armState.regOf modeSys 1#4) .byte = true ∧
    armState.ramAddress (armState.regOf modeSys 1#4) = true := by
  unfold ArmRuns; decide +kernel

theorem witness_LoadMultipleCompletes :
    (ArmRuns .al armState ∧ ¬LoadBlockForbidden armState false true 1#4 0x800D#16) ∧
    (ArmRuns .al (irqState 0x3F#32) ∧ ¬LoadBlockForbidden (irqState 0x3F#32) true true 13#4 0x8001#16 ∧
      ¬LoadBlockForbidden (irqState 0x3F#32) true false 13#4 0x6001#16) := by
  have sys : armState.spsr = none := by decide +kernel
  have irq : (irqState 0x3F#32).spsr = some (psr 0x3F#32) := by decide +kernel
  have k : spsrIndex (irqState 0x3F#32).cpu.cpsr.mode = some 1 := by decide +kernel
  have legal : legalMode (psr 0x3F#32).mode = true := by decide +kernel
  refine ⟨⟨by unfold ArmRuns; decide +kernel, ?_⟩, by unfold ArmRuns; decide +kernel, ?_, ?_⟩ <;>
    simp [LoadBlockForbidden, BlockForbidden, irq, k, legal]

theorem witness_StoreMultipleCompletes :
    (ArmRuns .al armState ∧ ¬StoreBlockForbidden armState false true 1#4 0x8002#16 ∧ armState.dma.held = [] ∧
      armState.plainStores (wordAddresses (regList 0x8002#16).length
        (blockStart true true (armState.regOf modeSys 1#4) (regList 0x8002#16).length)) = true) ∧
    (ArmRuns .al (irqState 0#32) ∧ ¬StoreBlockForbidden (irqState 0#32) true false 1#4 0x6002#16) := by
  have k : spsrIndex (irqState 0#32).cpu.cpsr.mode = some 1 := by decide +kernel
  refine ⟨⟨by unfold ArmRuns; decide +kernel, ?_, by decide +kernel, by decide +kernel⟩, by unfold ArmRuns; decide +kernel,
    ?_⟩
  · rintro (h | ⟨-, -, k, hk, hb⟩)
    · simp [BlockForbidden] at h
    · have : k = 0 := by simp at hk; omega
      subst this; simp at hb
  · simp [StoreBlockForbidden, BlockForbidden, k]

theorem witness_AccessesOutsideRam :
    let s := { armState with biosLen := 0x1000, romLen := 0x1000 }
    let t := { s with cpu := { s.cpu with pc := 0x100#32 } }
    let odd := { s with biosLen := 0xFFF, romLen := 0xFFF }
    let widths : List Width := [.byte, .half, .word]
    let bios : List Word := [0xFFC#32, 0x1000#32]
    let rom : List Word := [0x08000FFC#32, 0x0A001000#32, 0x0D000000#32]
    let save : List Word := [0x0E000000#32, 0x0FFFFFFC#32]
    (∀ (k : Fin 2) (j : Fin 3), bios[k].toNat % widths[j].bytes = 0 ∧ s.region bios[k] = .bios) ∧
    (s.cpu.pc.extractLsb' 24 8 ≠ 0#8 ∧ ¬(t.cpu.pc.extractLsb' 24 8 ≠ 0#8)) ∧
    (∀ (k : Fin 3) (j : Fin 3), rom[k].toNat % widths[j].bytes = 0 ∧ s.region rom[k] ∈ [Region.rom0, .rom1, .rom2] ∧
      s.isEepromPort rom[k] = false) ∧
    -- a halfword and a word that straddle the end of an image, and the byte before it
    (odd.biosLen < 0xFFE + Width.bytes .half ∧ ¬(odd.biosLen ≤ 0xFFE) ∧ odd.biosLen < 0xFFC + 4 ∧
      odd.romLen < 0xFFC + Width.bytes .word ∧ ¬(odd.biosLen < 0xFFE + Width.bytes .byte)) ∧
    s.gpio.readable = false ∧ s.region 0x01000001#32 = .unmapped ∧
    (∀ k : Fin 2, save[k].toNat % 4 = 0 ∧ s.region save[k] = .save ∧
      s.storeWindow.hit save[k] (Width.bytes .half) = false ∧ s.storeWindow.hit save[k] (Width.bytes .word) = false) ∧
    s.save.backend = .sram := by
  decide +kernel

/-- R185, D10: a protected halfword read at the last byte of an image of odd length draws; R172: a word there does not. -/
theorem test_protected_bios_end :
    let s := { armState with biosLen := 0xFFF }
    (s.memRead 0xFFE#32 .half false).2.draws = s.draws + 1 ∧ (s.memRead 0xFFC#32 .word false).2.draws = s.draws := by
  decide +kernel

theorem witness_BranchesComplete : armState.cpu.pc.toNat % 4 = 0 ∧ ArmRuns .al armState := by
  unfold ArmRuns; decide +kernel

/-- Odd, multiple of 4, and 2 modulo 4, in both states. -/
theorem witness_BranchExchanges :
    let s := fun cpsr : Word => bench cpsr 0x08000000#32 [(1#4, 0x03000001#32), (2#4, 0x03000000#32), (3#4, 0x03000002#32)] []
    ArmRuns .al (s 0x1F#32) ∧ (s 0x3F#32).cpu.cpsr.t = true ∧
    (∀ q : Bool, let r := (s (if q then 0x1F#32 else 0x3F#32)).reg (if q then 8#32 else 4#32)
      (r 1#4).toNat % 2 = 1 ∧ (r 2#4).toNat % 4 = 0 ∧ (r 3#4).toNat % 4 = 2 ∧ (r 15#4).toNat % 4 = 0) := by
  unfold ArmRuns; decide +kernel

theorem witness_SoftwareInterruptEnters : ArmRuns .al armState ∧ thumbState.cpu.cpsr.t = true := by
  unfold ArmRuns; decide +kernel

theorem witness_IllegalRowsStop :
    (Instr.cdp .eq 0#19 0#4).illegalRow = true ∧ (Instr.tUndefB1 0#8).illegalRow = true := by decide

/-- Thumb state, for every statement about the Thumb instructions. -/
theorem witness_thumb_premises : thumbState.cpu.cpsr.t = true ∧ thumbState.cpu.pc.toNat % 2 = 0 := by decide +kernel

theorem witness_ThumbShiftsComplete :
    thumbState.cpu.cpsr.t = true ∧ ∃ o ∈ thumbShifts thumbState 1#5 1#3 0#3, o.1 = .tLslImm 1#5 1#3 0#3 :=
  ⟨by decide +kernel, _, .head _, rfl⟩

theorem witness_ThumbArithmeticCompletes :
    thumbState.cpu.cpsr.t = true ∧ ∃ o ∈ thumbArithmetic thumbState 2#3 1#3 0#3 0#3 0#8, o.1 = .tAddReg 2#3 1#3 0#3 :=
  ⟨by decide +kernel, _, .head _, rfl⟩

theorem witness_ThumbLogicalAndCompareComplete :
    thumbState.cpu.cpsr.t = true ∧ (∃ o ∈ thumbLogical thumbState 1#3 0#3 0#8, o.1 = .tMovImm8 0#3 0#8) ∧
    ∃ o ∈ thumbCompare thumbState 1#3 0#3 0#8, o.1 = .tCmpImm8 0#3 0#8 :=
  ⟨by decide +kernel, ⟨_, .head _, rfl⟩, _, .head _, rfl⟩

theorem witness_ThumbHighRegistersComplete :
    thumbState.cpu.cpsr.t = true ∧ ((7#4 : RegNo).toNat < 8 ∧ (0#4 : RegNo).toNat < 8) ∧ 8 ≤ (8#4 : RegNo).toNat ∧
    (14#4 : RegNo) ≠ 15#4 ∧ 8 ≤ (15#4 : RegNo).toNat := by decide +kernel

theorem witness_ThumbAddressesComplete :
    thumbState.cpu.cpsr.t = true ∧
    ∃ o ∈ [(Instr.tAdjustSp true 127#7, (13#4 : RegNo), thumbState.regOf modeSys 13#4 - 4#32 * (127#7).setWidth 32)],
      o.2.2 = 0x03007D04#32 := ⟨by decide +kernel, _, .head _, by decide +kernel⟩

theorem witness_ThumbLoadsComplete :
    thumbState.cpu.cpsr.t = true ∧
    ∃ o ∈ thumbLoads thumbState 2#3 1#3 0#3 0#5 0#8, o.1 = .tLdrPc 0#3 0#8 := ⟨by decide +kernel, _, .head _, rfl⟩

theorem witness_ThumbStoresComplete :
    thumbState.cpu.cpsr.t = true ∧ thumbState.dma.held = [] ∧
    ∀ o ∈ thumbStores thumbState 2#3 1#3 0#3 31#5 3#8, thumbState.plainStore o.2.1 o.2.2 = true := by
  decide +kernel

theorem witness_ThumbBlockStoresComplete :
    thumbState.cpu.cpsr.t = true ∧ thumbState.dma.held = [] ∧ (0x81#8 : BitVec 8) ≠ 0#8 ∧
    thumbState.plainStores (wordAddresses 3 (thumbState.regOf modeSys 13#4 - fourTimes 3)) = true ∧
    thumbState.plainStores (wordAddresses 1 (thumbState.regOf modeSys 13#4 - fourTimes 1)) = true ∧
    -- STMIA r1 of r1 and r2 is allowed, of r0 and r1 forbidden
    ((0x06#8).getLsbD 1 = true ∧ ∀ k, k < 1 → (0x06#8).getLsbD k = false) ∧
    ((0x03#8).getLsbD 1 = true ∧ ∃ k, k < 1 ∧ (0x03#8).getLsbD k = true) ∧
    thumbState.plainStores (wordAddresses 2 (thumbState.low 1#3)) = true := by decide +kernel

theorem witness_ThumbBlockLoadsComplete :
    thumbState.cpu.cpsr.t = true ∧ (0x81#8 : BitVec 8) ≠ 0#8 ∧
    thumbState.ramAddress (thumbState.regOf modeSys 13#4 + fourTimes 0) = true := by decide +kernel

theorem witness_ThumbBranchesComplete :
    thumbState.cpu.pc.toNat % 2 = 0 ∧ thumbState.cpu.cpsr.t = true ∧ condHolds .ne thumbState.cpu.cpsr = true ∧
    condHolds .eq thumbState.cpu.cpsr = false := by decide +kernel

theorem witness_InterruptRegisterStores :
    armState.dma.held = [] ∧ armState.storeWindow.hit 0x04000200#32 4 = false ∧
    armState.storeWindow.hit 0x04000202#32 2 = false ∧ armState.storeWindow.hit 0x04000208#32 2 = false := by
  decide +kernel

theorem witness_WaitStatesFollowWaitcnt :
    (armState.dma.held = [] ∧ armState.storeWindow.hit 0x04000204#32 2 = false) ∧ Width.half ≠ .word ∧
    armState.region 0x08000000#32 = .rom0 ∧ armState.region 0x0BFFFFFF#32 = .rom1 ∧ armState.region 0x0C000000#32 = .rom2 ∧
    armState.region 0x0E000000#32 = .save := by decide +kernel

/-- A running timer before and after its counter passes 0xFFFF. -/
theorem witness_TimersCount :
    let t : Timer := { reload := 0xFF00#16, start := 0xFF00, t0 := 0, count := 0xFF00, ctl := 0x80#8, next := some 256 }
    t.running = true ∧ t.cascading 3 = false ∧ t.t0 ≤ 255 ∧ t.t0 ≤ 256 := by decide

theorem witness_DmaMovesOneWord :
    let d : DmaChannel := { DmaChannel.reset with
      cntH := 0xC400#16, isrc := 0x03000000#32, idst := 0x03000100#32, icount := 1 }
    let s := { armState with dma := { armState.dma with chan := Vector.replicate 4 d } }
    ∀ n : Fin 4, s.dmaChan n = d ∧ d.enabled = true ∧ d.srcCtl ≠ 3#2 ∧ d.wide = true ∧ d.feedsFifo n = false ∧
      d.icount = 1 ∧ d.repeats = false ∧ s.ramAddress d.isrc = true ∧ s.ramAddress d.idst = true ∧
      s.storeWindow.hit (Width.word.align d.idst) 4 = false := by decide +kernel

theorem witness_LinesAdvance :
    (∀ n, (armState.dmaChan n).enabled = false ∨ (armState.dmaChan n).timing ∉ [1#2, 2#2]) ∧
    armState.ppu.phase = .hdraw ∧ ({ armState.ppu with phase := .hblank } : Ppu).phase = .hblank ∧
    (159 + 1) % 228 = 160 := by decide +kernel

/-- R996: line 160 hands one frame over, no other line does. -/
theorem test_frame_handed :
    (∀ k : Fin 2,
      let s := { armState with ppu := { armState.ppu with phase := .hblank, vcount := [158, 159][k] } }
      (match s.event s.passWindow .ppu 0 with
        | .ok t => t.output.frames.length
        | .error _ => 2) = k.val) := by decide +kernel

/-- An image that is rejected for each reason, and one that launches either way. -/
theorem witness_LaunchStates :
    let x := fun (rom : List Byte) (d : Bool) => (⟨[0xAA#8], rom, none, d, none, Params.default⟩ : LaunchInput)
    let good := (List.replicate 0xC0 0#8).set 0xB2 0x96#8
    launch (x [] false) = none ∧ launch (x (List.replicate 0xC0 0#8) true) = none ∧
    (∀ d : Bool, (launch (x good d)).isSome = true) ∧ [0xAA#8][0]? = some (0xAA#8 : Byte) := by decide +kernel

end Sys2Proof.Tests
end

section
/-! ARM branches and the software interrupt (44_arm_branch_swi.md; 45 to 47 share the ends): what a branch and an
exception entry do to a state, said once, and the statements about B, BL and SWI. -/

namespace Sys2Proof.Machine

/-! ### Branches -/

theorem OnlyCpu.trans {s u t : State} (hu : OnlyCpu s u) (ht : OnlyCpu u t) : OnlyCpu s t :=
  Eq.trans ht (congrArg (fun x : State => { x with cpu := t.cpu, cycles := t.cycles }) hu)

/-- An instruction that has done nothing yet. -/
theorem Effect.refl (s : State) : Effect s s [] s.cpu.cpsr s.cpu.pc :=
  ⟨⟨.nil s s rfl rfl, rfl, rfl, rfl, rfl⟩, rfl, fun _ => rfl⟩

/-- A register write alone, before the program counter moves. -/
theorem Effect.setReg (s : State) (rd : RegNo) (v : Word) (h : rd ≠ 15#4) :
    Effect s (s.setReg rd v) [(s.here rd, v)] s.cpu.cpsr s.cpu.pc := by
  have hpc : (s.setReg rd v).setPc s.cpu.pc = s.setReg rd v := by
    simp only [State.setReg_def, State.setRegOf, if_neg h, State.setPc]
  rw [← hpc]
  exact Effect.writeKeep s 0 rd v s.cpu.pc h

/-- A branch after any effect on the registers moves the program counter and bills cycles, and keeps the rest
(R363, R1201). -/
theorem Effect.branch {s u : State} {ds : List (Fin 30 × Word)} {p : Psr} {pc : Word} (h : Effect s u ds p pc)
    (target : Word) : Effect s (u.branch target) ds p (alignPc p.t target) := by
  obtain ⟨⟨hregs, hcpsr, -, hspsr⟩, honly, hbytes⟩ := h
  subst hcpsr
  exact ⟨⟨hregs.of_gpr rfl rfl, rfl, rfl, hspsr⟩, honly.trans rfl, hbytes⟩

/-- A branch bills its code access and the refill at the target (R1201). -/
theorem State.branch_cycles (u : State) (target : Word) :
    (u.branch target).cycles = u.cycles + u.codeCost + (u.branch target).refillCost :=
  Nat.add_assoc ..

/-- The code access costs the same after a register write. -/
theorem State.codeCost_setReg (s : State) (rd : RegNo) (v : Word) : (s.setReg rd v).codeCost = s.codeCost := by
  simp [State.codeCost, State.prefetch, State.cost, State.region]

/-- An address aligned for its encoding mode is the program counter a write of it gives (R60, R363). -/
theorem alignPc_of_aligned {thumb : Bool} {v : Word} (h : pcAligned thumb v = true) : alignPc thumb v = v := by
  cases thumb
  · exact Width.align_of_aligned v .word (by simpa [pcAligned, Width.bytes] using h)
  · exact Width.align_of_aligned v .half (by simpa [pcAligned, Width.bytes] using h)

/-- The target of B and BL by integer arithmetic (R570). -/
theorem armTarget_eq_ofInt (pc : Word) (off : BitVec 24) :
    armTarget pc off = BitVec.ofInt 32 (pc.toNat + 8 + 4 * off.toInt) := by
  have hext : off.signExtend 32 = BitVec.ofInt 32 off.toInt := rfl
  have hpc : pc = BitVec.ofInt 32 pc.toNat := by simp
  rw [armTarget, hext, BitVec.shiftLeft_eq_mul_twoPow, Int.mul_comm 4, BitVec.ofInt_add, BitVec.ofInt_add,
    BitVec.ofInt_mul, ← hpc]
  rfl

/-- The target of B and BL is a multiple of 4 where the program counter is one. -/
theorem armTarget_aligned {pc : Word} (h : pc.toNat % 4 = 0) (off : BitVec 24) :
    pcAligned false (armTarget pc off) = true := by
  have hmod : (armTarget pc off).toNat % 4 = 0 := by
    simp only [armTarget, BitVec.toNat_add, BitVec.toNat_shiftLeft, BitVec.toNat_ofNat]
    omega
  simpa [pcAligned] using hmod

/-- The program counter after B or BL (R570). -/
theorem alignPc_armTarget {pc : Word} (h : pc.toNat % 4 = 0) (off : BitVec 24) :
    alignPc false (armTarget pc off) = BitVec.ofInt 32 (pc.toNat + 8 + 4 * off.toInt) := by
  rw [alignPc_of_aligned (armTarget_aligned h off), armTarget_eq_ofInt]

theorem exec_b {c : Cond} {s : State} (h : condHolds c s.cpu.cpsr = true) (off : BitVec 24) :
    exec (.b c off) s = answer (.ok (s.branch (armTarget s.cpu.pc off))) := armCond_pass h _

theorem exec_bl {c : Cond} {s : State} (h : condHolds c s.cpu.cpsr = true) (off : BitVec 24) :
    exec (.bl c off) s = answer (.ok ((s.setReg 14#4 (s.cpu.pc + 4#32)).branch (armTarget s.cpu.pc off))) :=
  armCond_pass h _

/-- Settles O40: a branch after no register write, and after the write of the link. -/
theorem branchesComplete : Obligations.BranchesComplete := by
  intro s c off haligned ⟨harm, hcond⟩ target
  have hpc : alignPc s.cpu.cpsr.t (armTarget s.cpu.pc off) = target := by
    rw [harm]; exact alignPc_armTarget haligned off
  constructor
  · rw [exec_b hcond]
    exact completes_ok ⟨hpc ▸ (Effect.refl s).branch _, State.branch_cycles ..⟩
  · rw [exec_bl hcond]
    refine completes_ok ⟨hpc ▸ (Effect.setReg s 14#4 (s.cpu.pc + 4#32) (by decide)).branch _, ?_⟩
    rw [State.branch_cycles, State.codeCost_setReg, State.setReg_def, State.setRegOf_cycles]

/-! ### Exception entries -/

/-- An exception entry between its billings does what R830 says, to any mode that has an SPSR. -/
theorem EntersException.billed {m : BitVec 5} {k : Fin 5} (hk : spsrIndex m = some k) (s : State) (n : Nat)
    (vector ret step : Word) :
    EntersException s (((s.bill n).enterException m vector ret).billRefill step) m k vector ret := by
  have hne : (14#4 : RegNo) ≠ 15#4 := by decide
  simp only [State.enterException, State.setSpsrOf, hk, State.setReg_def]
  refine ⟨(Wrote.setRegOf s m 14#4 ret hne).of_gpr ?_ ?_, ?_, rfl, ⟨?_, ?_⟩, ?_, fun _ => ?_⟩
  all_goals simp only [State.setRegOf, if_neg hne, OnlyCpu]; rfl

/-- An access to the BIOS has no wait states (R180). -/
theorem State.cost_of_slot_zero (s : State) {a : Word} (h : slot a = 0) (w : Width) (seq : Bool) :
    s.cost a w seq = 1 := by
  simp [State.cost, State.region, h, regionOfSlot, waitStates]

/-- The refill at a vector of the BIOS takes two cycles (R1201). -/
theorem State.billRefill_bios_cycles (s : State) {a step : Word} (hpc : s.cpu.pc = a) (ha : slot a = 0)
    (hnext : slot (a + step) = 0) : (s.billRefill step).cycles = s.cycles + 2 := by
  simp [State.billRefill, State.billAccess, State.cost_of_slot_zero, hpc, ha, hnext]

@[simp] theorem State.enterException_cycles (s : State) (m : BitVec 5) (vector ret : Word) :
    (s.enterException m vector ret).cycles = s.cycles := by simp [State.enterException]

@[simp] theorem State.enterException_pc (s : State) (m : BitVec 5) (vector ret : Word) :
    (s.enterException m vector ret).cpu.pc = vector := rfl

/-- SWI from either state, whose instructions are `step` bytes apart (R580, R745). -/
theorem State.softwareInterrupt_enters (s : State) {step : Word} (hstep : codeStep s.cpu.cpsr.t = step) :
    EntersException s s.softwareInterrupt modeSvc 2 8#32 (s.cpu.pc + step) ∧
      s.softwareInterrupt.cycles = s.cycles + s.codeCost + 2 := by
  subst hstep
  constructor
  · exact .billed (by decide) s s.codeCost ..
  · rw [State.softwareInterrupt, State.billRefill_bios_cycles _ (State.enterException_pc ..) (by decide) (by decide),
      State.enterException_cycles]
    rfl

theorem exec_swi {c : Cond} {s : State} (h : condHolds c s.cpu.cpsr = true) (n : BitVec 24) :
    exec (.swi c n) s = answer (.ok s.softwareInterrupt) := armCond_pass h _

theorem exec_tSwi (n : BitVec 8) (s : State) : exec (.tSwi n) s = .next s.softwareInterrupt := rfl

/-- Settles O42: both forms are one exception entry, whose return address lies past an instruction of the state. -/
theorem softwareInterruptEnters : Obligations.SoftwareInterruptEnters := by
  constructor
  · intro s c n ⟨harm, hcond⟩
    rw [exec_swi hcond]
    exact completes_ok (s.softwareInterrupt_enters (congrArg codeStep harm))
  · intro s n hthumb
    rw [exec_tSwi]
    exact completes_next (s.softwareInterrupt_enters (congrArg codeStep hthumb))

end Sys2Proof.Machine
end

section
/-! Thumb address forms (45_thumb_alu.md R645, R646, R650): the end they share, a register write that keeps the flags, and
the statement about ADD Rd, PC; ADD Rd, SP and ADD SP. -/

namespace Sys2Proof.Machine

/-- A Thumb instruction that bills its code access, writes a register other than r15 and advances keeps the flags and
everything else (R61, R1201). -/
theorem State.writeThumbReg_effect {s : State} (hthumb : s.cpu.cpsr.t = true) {rd : RegNo} (hrd : rd ≠ 15#4)
    (v : Word) :
    Effect s (((s.billCode true).setReg rd v).advance) [(s.here rd, v)] s.cpu.cpsr (s.cpu.pc + 2#32) ∧
      (((s.billCode true).setReg rd v).advance).cycles = s.cycles + s.codeCost := by
  have hbill : s.billCode true = s.bill s.codeCost := rfl
  have hadvance : ((s.bill s.codeCost).setReg rd v).advance =
      ((s.bill s.codeCost).setReg rd v).setPc (s.cpu.pc + 2#32) := by
    simp [State.advance, hthumb, codeStep]
  rw [hbill, hadvance]
  exact ⟨Effect.writeKeep s s.codeCost rd v (s.cpu.pc + 2#32) hrd, by simp⟩

/-- A word offset in bytes is four times its immediate. -/
theorem shiftLeft_two_eq_four_mul (x : Word) : x <<< 2 = 4#32 * x := by
  rw [BitVec.shiftLeft_eq_mul_twoPow, BitVec.mul_comm]
  rfl

/-- The stack pointer as an operand is the one of the current mode (R57, R360). -/
theorem State.reg_sp (s : State) (ahead : Word) : s.reg ahead 13#4 = s.regOf s.cpu.cpsr.mode 13#4 := rfl

theorem exec_tAddPc (rd : LowReg) (imm8 : BitVec 8) (s : State) :
    exec (.tAddPc rd imm8) s =
      .next (((s.billCode true).setReg rd.up
        (((s.cpu.pc + 4#32) &&& 0xFFFFFFFC#32) + 4#32 * imm8.setWidth 32)).advance) := by
  rw [← shiftLeft_two_eq_four_mul]; rfl

theorem exec_tAddSp (rd : LowReg) (imm8 : BitVec 8) (s : State) :
    exec (.tAddSp rd imm8) s =
      .next (((s.billCode true).setReg rd.up
        (s.regOf s.cpu.cpsr.mode 13#4 + 4#32 * imm8.setWidth 32)).advance) := by
  rw [← shiftLeft_two_eq_four_mul, ← s.reg_sp 4#32]; rfl

theorem exec_tAdjustSp (down : Bool) (imm7 : BitVec 7) (s : State) :
    exec (.tAdjustSp down imm7) s =
      .next (((s.billCode true).setReg 13#4
        (applyOffset (!down) (s.regOf s.cpu.cpsr.mode 13#4) (4#32 * imm7.setWidth 32))).advance) := by
  rw [← shiftLeft_two_eq_four_mul, ← s.reg_sp 4#32]; rfl

/-- Settles O48: each of the four forms is one register write whose value the equation of its meaning gives. -/
theorem thumbAddressesComplete : Obligations.ThumbAddressesComplete := by
  intro s rd imm8 imm7 o hthumb sp ho
  simp only [List.mem_cons, List.not_mem_nil, or_false] at ho
  have hsp : (13#4 : RegNo) ≠ 15#4 := by decide
  obtain rfl | rfl | rfl | rfl := ho
  · rw [exec_tAddPc]
    exact completes_next (State.writeThumbReg_effect hthumb (up_ne_pc rd) _)
  · rw [exec_tAddSp]
    exact completes_next (State.writeThumbReg_effect hthumb (up_ne_pc rd) _)
  · rw [exec_tAdjustSp]
    exact completes_next (State.writeThumbReg_effect hthumb hsp _)
  · rw [exec_tAdjustSp]
    exact completes_next (State.writeThumbReg_effect hthumb hsp _)

end Sys2Proof.Machine
end

section
/-! Encoding and decoding (30_encoding.md): the fields of a word put together by the encoder, and the statements that the
decoder and the encoder are inverse to each other. -/

namespace Sys2Proof

/-! ### Fields of a word -/

/-- A field inside the low part. The width of the whole is not matched, since a word's width is written 32. -/
theorem field_append_low {n m s l : Nat} (x : BitVec n) (y : BitVec m) (h : s + l ≤ m) :
    BitVec.extractLsb' (n := no_index (n + m)) s l (@HAppend.hAppend _ _ (no_index (BitVec (n + m))) _ x y) =
      y.extractLsb' s l :=
  BitVec.extractLsb'_append_eq_of_add_le h

/-- A field above the low part. -/
theorem field_append_high {n m s l : Nat} (x : BitVec n) (y : BitVec m) (h : m ≤ s) :
    BitVec.extractLsb' (n := no_index (n + m)) s l (@HAppend.hAppend _ _ (no_index (BitVec (n + m))) _ x y) =
      x.extractLsb' (s - m) l :=
  BitVec.extractLsb'_append_eq_of_le h

/-- A field across the boundary of the two parts. -/
theorem field_append_across {n m s l : Nat} (x : BitVec n) (y : BitVec m) (h : s < m) (h' : m < s + l) :
    BitVec.extractLsb' (n := no_index (n + m)) s l (@HAppend.hAppend _ _ (no_index (BitVec (n + m))) _ x y) =
      (x.extractLsb' 0 (l - (m - s)) ++ y.extractLsb' s (m - s)).setWidth l := by
  ext i hi
  simp only [BitVec.getElem_extractLsb', BitVec.getElem_setWidth, BitVec.getLsbD_append, BitVec.getLsbD_extractLsb']
  by_cases hlow : i < m - s
  · simp [hlow, show s + i < m by omega]
  · simp [hlow, show ¬s + i < m by omega, show i - (m - s) = s + i - m by omega, show s + i - m < l - (m - s) by omega]

/-- A flag of an encoded flag. -/
theorem bit_beq_one (b : Bool) : (bit b == 1#1) = b := by cases b <;> rfl

theorem bit_eq_one (b : Bool) : bit b = 1#1 ↔ b = true := by cases b <;> decide

/-- The two halves of a split byte. -/
theorem halves_of_byte (v : BitVec 8) : v.extractLsb' 4 4 ++ v.extractLsb' 0 4 = v :=
  (BitVec.extractLsb'_append_extractLsb'_eq_extractLsb' rfl).trans BitVec.extractLsb'_eq_self

/-- A register number of a high bit and a low register (R285). -/
theorem halves_of_regNo (r : RegNo) : r.extractLsb' 3 1 ++ r.extractLsb' 0 3 = r :=
  (BitVec.extractLsb'_append_extractLsb'_eq_extractLsb' rfl).trans BitVec.extractLsb'_eq_self

theorem Cond.ofBits_bits (c : Cond) : Cond.ofBits c.bits = some c := by cases c <;> rfl

theorem ShiftType.ofBits_bits (t : ShiftType) : ShiftType.ofBits t.bits = t := by cases t <;> rfl


/-! ### The decoder on an encoded word -/

/-- The decoder of a condition's words decides by the rest of the word (R253). -/
theorem decodeArm_of_cond {w : Word} {c : Cond} (h : field w 28 4 = c.bits) : decodeArm w = decodeArmClass c w := by
  rw [decodeArm, h, Cond.ofBits_bits]

/-- The decoder's classes of a data-processing word, which is no PSR transfer (R254, R255). -/
theorem decodeArm_encDataProc (c : Cond) (op : BitVec 4) (s : Bool) (rn rd : RegNo) (op2 : Operand2)
    (h : op.extractLsb' 2 2 = 0b10#2 → s = true) :
    decodeArm (encDataProc c op s rn rd op2) = .ok (decodeDataProc c (encDataProc c op s rn rd op2) op2) := by
  have hs : ¬(op.extractLsb' 2 2 = 0b10#2 ∧ s = false) := fun ⟨hop, hs⟩ => by simp [h hop] at hs
  cases op2 <;>
    simp [decodeArm, encDataProc, field_append_low, field_append_high, field_append_across, Cond.ofBits_bits,
      decodeArmClass, decode000, decode001, Operand2.i, Operand2.bits, bit_eq_one, hs, decodeShifted,
      ShiftType.ofBits_bits]

/-- The fields of a data-processing word. -/
theorem fields_encDataProc (c : Cond) (op : BitVec 4) (s : Bool) (rn rd : RegNo) (op2 : Operand2) :
    let w := encDataProc c op s rn rd op2
    field w 21 4 = op ∧ flag w 20 = s ∧ field w 16 4 = rn ∧ field w 12 4 = rd := by
  simp [encDataProc, flag, field_append_low, field_append_high, bit_beq_one]

/-- A single transfer decodes by its flags (R265). -/
theorem decodeArm_encSingle (c : Cond) (b l : BitVec 1) (p u w : Bool) (rn rd : RegNo) (off : Offset) :
    decodeArm (encSingle c b l p u w rn rd off) = .ok (decodeSingle c (encSingle c b l p u w rn rd off) off) := by
  cases off <;>
    simp [decodeArm, encSingle, field_append_low, field_append_high, field_append_across, Cond.ofBits_bits,
      decodeArmClass, Offset.i, Offset.bits, ShiftType.ofBits_bits]

/-- The fields of a single transfer. -/
theorem fields_encSingle (c : Cond) (b l : BitVec 1) (p u w : Bool) (rn rd : RegNo) (off : Offset) :
    let x := encSingle c b l p u w rn rd off
    flag x 24 = p ∧ flag x 23 = u ∧ flag x 22 = (b == 1#1) ∧ flag x 21 = w ∧ flag x 20 = (l == 1#1) ∧
      field x 16 4 = rn ∧ field x 12 4 = rd := by
  simp [encSingle, flag, field_append_low, field_append_high, bit_beq_one]

/-- A halfword transfer decodes by its offset's form (R263). -/
theorem decodeArm_encHalfReg (c : Cond) (l : BitVec 1) (sh : BitVec 2) (p u w : Bool) (rn rd rm : RegNo)
    (hsh : sh ≠ 0#2) :
    decodeArm (encHalfReg c l sh p u w rn rd rm) = decodeHalfReg c (encHalfReg c l sh p u w rn rd rm) := by
  simp [decodeArm, encHalfReg, field_append_low, field_append_high, Cond.ofBits_bits,
    decodeArmClass, decode000, decodeHalf, hsh]

theorem decodeArm_encHalfImm (c : Cond) (l : BitVec 1) (sh : BitVec 2) (p u w : Bool) (rn rd : RegNo) (off : BitVec 8)
    (hsh : sh ≠ 0#2) :
    decodeArm (encHalfImm c l sh p u w rn rd off) = decodeHalfImm c (encHalfImm c l sh p u w rn rd off) := by
  simp [decodeArm, encHalfImm, field_append_low, field_append_high, Cond.ofBits_bits,
    decodeArmClass, decode000, decodeHalf, hsh]

theorem decodeArm_encMul (c : Cond) (a : BitVec 1) (s : Bool) (rd rn rs rm : RegNo) :
    decodeArm (encMul c a s rd rn rs rm) = .ok (if a = 1#1 then .mla c s rd rn rs rm else .mul c s rd rn rs rm) := by
  by_cases ha : a = 1#1 <;>
    simp [decodeArm, encMul, flag, field_append_low, field_append_high, Cond.ofBits_bits, decodeArmClass, decode000,
      decodeMultiply, bit_beq_one, ha]

/-- A long multiply decodes by U and A (R261). -/
theorem decodeArm_encMulLong (c : Cond) (ua : BitVec 2) (s : Bool) (rdHi rdLo rs rm : RegNo) :
    decodeArm (encMulLong c ua s rdHi rdLo rs rm) = .ok (
      if ua = 0b00#2 then .umull c s rdHi rdLo rs rm
      else if ua = 0b01#2 then .umlal c s rdHi rdLo rs rm
      else if ua = 0b10#2 then .smull c s rdHi rdLo rs rm
      else .smlal c s rdHi rdLo rs rm) := by
  have hua : ua = 0b00#2 ∨ ua = 0b01#2 ∨ ua = 0b10#2 ∨ ua = 0b11#2 := by revert ua; decide
  obtain rfl | rfl | rfl | rfl := hua <;>
    simp [decodeArm, encMulLong, flag, field_append_low, field_append_high, field_append_across, Cond.ofBits_bits,
      decodeArmClass, decode000, decodeMultiply, bit_beq_one]

theorem decodeArm_encSwp (c : Cond) (b : BitVec 1) (rn rd rm : RegNo) :
    decodeArm (encSwp c b rn rd rm) = .ok (if b = 1#1 then .swpb c rn rd rm else .swp c rn rd rm) := by
  have hb : b = 0#1 ∨ b = 1#1 := by revert b; decide
  obtain rfl | rfl := hb <;>
    simp [decodeArm, encSwp, flag, field_append_low, field_append_high, field_append_across, Cond.ofBits_bits,
      decodeArmClass, decode000, decodeMultiply]

theorem decodeArm_encMsrReg (c : Cond) (r : BitVec 1) (mask : BitVec 4) (rm : RegNo) :
    decodeArm (encMsrReg c r mask rm) = .ok (if r = 1#1 then .msrSpsrReg c mask rm else .msrCpsrReg c mask rm) := by
  by_cases hr : r = 1#1 <;>
    simp [decodeArm, encMsrReg, flag, field_append_low, field_append_high, Cond.ofBits_bits, decodeArmClass, decode000,
      decodePsr, hr]

theorem decodeArm_encMsrImm (c : Cond) (r : BitVec 1) (mask rot : BitVec 4) (imm8 : BitVec 8) :
    decodeArm (encMsrImm c r mask rot imm8) =
      .ok (if r = 1#1 then .msrSpsrImm c mask rot imm8 else .msrCpsrImm c mask rot imm8) := by
  by_cases hr : r = 1#1 <;>
    simp [decodeArm, encMsrImm, flag, field_append_low, field_append_high, Cond.ofBits_bits, decodeArmClass, decode001, hr]

theorem decodeArm_encBlock (c : Cond) (l : BitVec 1) (p u s w : Bool) (rn : RegNo) (list : BitVec 16) :
    decodeArm (encBlock c l p u s w rn list) =
      .ok (if l = 1#1 then .ldm c p u s w rn list else .stm c p u s w rn list) := by
  by_cases hl : l = 1#1 <;>
    simp [decodeArm, encBlock, flag, field_append_low, field_append_high, Cond.ofBits_bits, decodeArmClass, bit_beq_one,
      hl]

/-- The word of every ARM instruction that is well-formed decodes to it. -/
theorem decode_encode_arm (i : Instr) (ht : i.isThumb = false) (h : i.wellFormed = true) :
    (encode i).decode = .ok i := by
  cases i
  case and | eor | sub | rsb | add | adc | sbc | rsc | tst | teq | cmp | cmn | orr | mov | bic | mvn =>
    refine (decodeArm_encDataProc _ _ _ _ _ _ (by simp)).trans ?_
    simp [decodeDataProc, fields_encDataProc]
  case str _ p _ w _ _ _ | ldr _ p _ w _ _ _ | strb _ p _ w _ _ _ | ldrb _ p _ w _ _ _ =>
    refine (decodeArm_encSingle _ _ _ _ _ _ _ _ _).trans ?_
    cases p <;> simp_all [decodeSingle, fields_encSingle, Instr.wellFormed]
  case strt | ldrt | strbt | ldrbt =>
    refine (decodeArm_encSingle _ _ _ _ _ _ _ _ _).trans ?_
    simp [decodeSingle, fields_encSingle]
  case strhReg | ldrhReg | ldrsbReg | ldrshReg =>
    refine (decodeArm_encHalfReg _ _ _ _ _ _ _ _ _ (by simp)).trans ?_
    simp [decodeHalfReg, encHalfReg, flag, field_append_low, field_append_high, bit_beq_one]
  case strhImm | ldrhImm | ldrsbImm | ldrshImm =>
    refine (decodeArm_encHalfImm _ _ _ _ _ _ _ _ _ (by simp)).trans ?_
    simp [decodeHalfImm, encHalfImm, flag, field_append_low, field_append_high, bit_beq_one, halves_of_byte]
  case mul | mla => exact decodeArm_encMul ..
  case umull | umlal | smull | smlal => exact decodeArm_encMulLong ..
  case swp | swpb => exact decodeArm_encSwp ..
  case msrCpsrReg | msrSpsrReg => exact decodeArm_encMsrReg ..
  case msrCpsrImm | msrSpsrImm => exact decodeArm_encMsrImm ..
  case stm | ldm => exact decodeArm_encBlock ..
  case bx | mrs =>
    simp [encode, Code.decode, decodeArm, flag, field_append_low, field_append_high, field_append_across,
      Cond.ofBits_bits, decodeArmClass, decode000, decodePsr, bit_beq_one]
  case undefinedArm | b | bl | ldcStc | cdp | mcrMrc | swi =>
    simp [encode, Code.decode, decodeArm, flag, field_append_low, field_append_high, Cond.ofBits_bits, decodeArmClass]
  all_goals cases ht

/-! ### The decoder on an encoded halfword -/

theorem decodeThumb_encT4 (op : BitVec 4) (rs rd : LowReg) :
    decodeThumb (encT4 op rs rd) = .ok (decodeThumbAlu (encT4 op rs rd)) := by
  simp [decodeThumb, decodeThumb010, flagH, encT4, field_append_high]

theorem fields_encT4 (op : BitVec 4) (rs rd : LowReg) :
    let h := encT4 op rs rd
    fieldH h 6 4 = op ∧ fieldH h 3 3 = rs ∧ fieldH h 0 3 = rd := by
  simp [encT4, field_append_low, field_append_high]

theorem decodeThumb_encT78 (x : BitVec 3) (ro rb rd : LowReg) :
    decodeThumb (encT78 x ro rb rd) = .ok (
      if x = 0b000#3 then .tStrReg ro rb rd
      else if x = 0b010#3 then .tStrbReg ro rb rd
      else if x = 0b100#3 then .tLdrReg ro rb rd
      else if x = 0b110#3 then .tLdrbReg ro rb rd
      else if x = 0b001#3 then .tStrhReg ro rb rd
      else if x = 0b101#3 then .tLdrhReg ro rb rd
      else if x = 0b011#3 then .tLdsbReg ro rb rd
      else .tLdshReg ro rb rd) := by
  simp only [apply_ite Except.ok]
  simp [decodeThumb, decodeThumb010, flagH, encT78, field_append_low, field_append_high]

theorem decodeThumb_encTMisc (x : BitVec 4) (rest : BitVec 8) :
    decodeThumb (encTMisc x rest) = .ok (decodeThumb1011 (encTMisc x rest)) := by
  simp [decodeThumb, decodeThumb101, flagH, encTMisc, field_append_high]

theorem fields_encTMisc (x : BitVec 4) (rest : BitVec 8) :
    let h := encTMisc x rest
    fieldH h 8 4 = x ∧ fieldH h 0 8 = rest ∧ fieldH h 0 7 = rest.extractLsb' 0 7 ∧
      flagH h 7 = (rest.extractLsb' 7 1 == 1#1) := by
  simp [encTMisc, flagH, field_append_low, field_append_high]

theorem decodeThumb_encT16 (x : BitVec 4) (rest : BitVec 8) :
    decodeThumb (encT16 x rest) = .ok (
      match Cond.ofBits x with
      | none => .tSwi rest
      | some .al => .tUndefCond rest
      | some c => .tBcond c rest) := by
  simp [decodeThumb, decodeThumb110, flagH, encT16, field_append_low, field_append_high] <;>
    rfl

/-- The halfword of every Thumb instruction that is well-formed decodes to it. -/
theorem decode_encode_thumb (i : Instr) (ht : i.isThumb = true) (h : i.wellFormed = true) :
    (encode i).decode = .ok i := by
  cases i
  case tLslImm | tLsrImm | tAsrImm | tAddReg | tSubReg | tAddImm3 | tSubImm3 =>
    simp [encode, Code.decode, decodeThumb, encT1, encT2, field_append_low, field_append_high, decodeThumb000]
  case tMovImm8 | tCmpImm8 | tAddImm8 | tSubImm8 =>
    simp [encode, Code.decode, decodeThumb, encT3, field_append_low, field_append_high, decodeThumb001]
  case tAnd | tEor | tLslReg | tLsrReg | tAsrReg | tAdc | tSbc | tRorReg | tTst | tNeg | tCmpReg | tCmn | tOrr | tMul |
      tBic | tMvn =>
    refine (decodeThumb_encT4 _ _ _).trans ?_
    simp [decodeThumbAlu, fields_encT4]
  case tAddHi | tCmpHi | tMovHi | tBx =>
    simp [encode, Code.decode, decodeThumb, encT5, flagH, field_append_low, field_append_high, decodeThumb010,
      decodeThumbHi, halves_of_regNo]
  case tStrReg | tStrbReg | tLdrReg | tLdrbReg | tStrhReg | tLdrhReg | tLdsbReg | tLdshReg =>
    exact decodeThumb_encT78 ..
  case tLdrPc =>
    simp [encode, Code.decode, decodeThumb, flagH, field_append_low, field_append_high, decodeThumb010]
  case tStrImm | tLdrImm | tStrbImm | tLdrbImm =>
    simp [encode, Code.decode, decodeThumb, encT9, field_append_low, field_append_high, decodeThumb011]
  case tStrhImm | tLdrhImm | tStrSp | tLdrSp =>
    simp [encode, Code.decode, decodeThumb, encT10, encT11, field_append_low, field_append_high, decodeThumb100]
  case tAddPc | tAddSp =>
    simp [encode, Code.decode, decodeThumb, encT12, flagH, field_append_low, field_append_high, decodeThumb101]
  case tPush r _ | tPop r _ =>
    refine (decodeThumb_encTMisc _ _).trans ?_
    cases r <;> simp [decodeThumb1011, fields_encTMisc]
  case tAdjustSp | tUndefB1 | tUndefB2 | tUndefB3 | tUndefB6 | tUndefB7 | tUndefB8 | tUndefB9 | tUndefBA | tUndefBB |
      tUndefBE | tUndefBF =>
    refine (decodeThumb_encTMisc _ _).trans ?_
    simp [decodeThumb1011, fields_encTMisc, field_append_low, field_append_high, bit_beq_one]
  case tStmia | tLdmia =>
    simp [encode, Code.decode, decodeThumb, encT15, flagH, field_append_low, field_append_high, decodeThumb110]
  case tSwi | tUndefCond => exact decodeThumb_encT16 ..
  case tBcond c _ =>
    refine (decodeThumb_encT16 _ _).trans ?_
    have hc : c ≠ .al := by simpa [Instr.wellFormed] using h
    rw [Cond.ofBits_bits]
    cases c
    case al => exact absurd rfl hc
    all_goals rfl
  case tB | tBlHigh | tBlLow | tUndefBlx =>
    simp [encode, Code.decode, decodeThumb, encT18, field_append_low, field_append_high, decodeThumb111]
  all_goals cases ht

/-- Settles O1: each encoding form decodes to the instruction its fields name. -/
theorem encodeThenDecode : Obligations.EncodeThenDecode := by
  intro i h
  cases ht : i.isThumb
  · exact decode_encode_arm i ht h
  · exact decode_encode_thumb i ht h

end Sys2Proof
end

section
/-! The words the decoder accepts (30_encoding.md): each is the encoding of the instruction it decodes to, and the
reserved words are rejected. -/

namespace Sys2Proof

/-! ### The encoder on a decoded word -/

/-- Two parts make up a word if they are its fields. -/
theorem append_eq_iff {n m : Nat} (x : BitVec n) (y : BitVec m) (w : BitVec (n + m)) :
    @Eq (no_index (BitVec (n + m))) (@HAppend.hAppend _ _ (no_index (BitVec (n + m))) _ x y) w ↔
      x = w.extractLsb' m n ∧ y = w.extractLsb' 0 m := by
  constructor
  · rintro rfl
    simp [BitVec.extractLsb'_append_eq_of_le, BitVec.extractLsb'_append_eq_of_add_le]
  · rintro ⟨rfl, rfl⟩
    exact (BitVec.extractLsb'_append_extractLsb'_eq_extractLsb' (by simp)).trans BitVec.extractLsb'_eq_self

theorem field_field {n s l s' l' : Nat} (w : BitVec n) (h : s' + l' ≤ l) :
    (w.extractLsb' s l).extractLsb' s' l' = w.extractLsb' (s + s') l' := by
  ext i hi
  simp [show s' + i < l by omega, Nat.add_assoc]

/-- An encoded flag of a word is its bit. -/
theorem bit_flag (x : BitVec 1) : bit (x == 1#1) = x := by revert x; decide

/-- A field by its bits. -/
theorem field_succ_eq {n : Nat} (w : BitVec n) (s l : Nat) (v : BitVec (l + 1)) :
    w.extractLsb' s (l + 1) = v ↔ w.getLsbD s = v.getLsbD 0 ∧ w.extractLsb' (s + 1) l = v.extractLsb' 1 l := by
  constructor
  · rintro rfl
    refine ⟨by simp, ?_⟩
    ext i hi
    simp [show 1 + i < l + 1 by omega, Nat.add_assoc]
  · rintro ⟨h0, hs⟩
    ext i hi
    cases i with
    | zero => simpa using h0
    | succ i =>
      have := congrArg (fun x => x.getLsbD i) hs
      simpa [show i < l by omega, Nat.add_assoc, Nat.add_comm 1] using this

theorem eq_field_succ {n : Nat} (w : BitVec n) (s l : Nat) (v : BitVec (l + 1)) :
    v = w.extractLsb' s (l + 1) ↔ v.getLsbD 0 = w.getLsbD s ∧ v.extractLsb' 1 l = w.extractLsb' (s + 1) l := by
  rw [eq_comm, field_succ_eq, eq_comm, @eq_comm _ (w.extractLsb' _ _)]

theorem field_zero_eq {n : Nat} (w : BitVec n) (s : Nat) (v : BitVec 0) : w.extractLsb' s 0 = v := by
  rw [BitVec.of_length_zero (x := v), BitVec.of_length_zero (x := w.extractLsb' s 0)]

theorem Cond.eq_bits_of_ofBits {b : BitVec 4} {c : Cond} (h : Cond.ofBits b = some c) : c.bits = b := by
  revert b c; decide

theorem ShiftType.bits_ofBits (b : BitVec 2) : (ShiftType.ofBits b).bits = b := by revert b; decide

/-- An instruction is the meaning of a word: it is well-formed and the word encodes it. -/
def Encodes (i : Instr) (code : Code) : Prop := encode i = code ∧ i.wellFormed = true

theorem encodes_decodeMultiply {c : Cond} {w : Word} {i : Instr} (hc : c.bits = field w 28 4)
    (hclass : field w 25 3 = 0b000#3) (h7 : flag w 7 = true) (h5 : field w 5 2 = 0b00#2) (h4 : flag w 4 = true)
    (h : decodeMultiply c w = .ok i) : Encodes i (.arm w) := by
  unfold decodeMultiply at h
  repeat' split at h
  all_goals cases h
  all_goals refine ⟨congrArg Code.arm ?_, rfl⟩
  all_goals
    simp [encMul, encMulLong, encSwp, append_eq_iff, field_field, bit_flag, hc]
    simp_all [field_succ_eq, eq_field_succ]

theorem encodes_decodeHalf {c : Cond} {w : Word} {i : Instr} (hc : c.bits = field w 28 4)
    (hclass : field w 25 3 = 0b000#3) (h7 : flag w 7 = true) (h5 : ¬field w 5 2 = 0b00#2) (h4 : flag w 4 = true)
    (h : decodeHalf c w = .ok i) : Encodes i (.arm w) := by
  unfold decodeHalf decodeHalfReg decodeHalfImm at h
  repeat' split at h
  all_goals cases h
  all_goals refine ⟨congrArg Code.arm ?_, rfl⟩
  all_goals
    simp [encHalfReg, encHalfImm, append_eq_iff, field_field, bit_flag, hc, field_append_low, field_append_high]
    simp_all [field_succ_eq, eq_field_succ]

theorem encodes_decodePsr {c : Cond} {w : Word} {i : Instr} (hc : c.bits = field w 28 4)
    (hclass : field w 25 3 = 0b000#3) (h23 : field w 23 2 = 0b10#2) (h20 : flag w 20 = false)
    (h : decodePsr c w = .ok i) : Encodes i (.arm w) := by
  unfold decodePsr at h
  repeat' split at h
  all_goals cases h
  all_goals refine ⟨congrArg Code.arm ?_, rfl⟩
  all_goals
    simp [encMsrReg, append_eq_iff, field_field, bit_flag, hc]
    simp_all [field_succ_eq, eq_field_succ]

/-- The data-processing opcodes: the comparisons, and the others. -/
theorem opcode_compares_or_not : ∀ op : BitVec 4, op ∈ [8#4, 9#4, 10#4, 11#4] ∨
    op ∈ [0#4, 1#4, 2#4, 3#4, 4#4, 5#4, 6#4, 7#4, 12#4, 13#4, 14#4, 15#4] := by decide

/-- The values of a 4-bit field. -/
theorem fourBits_cases : ∀ x : BitVec 4, x = 0#4 ∨ x = 1#4 ∨ x = 2#4 ∨ x = 3#4 ∨ x = 4#4 ∨ x = 5#4 ∨ x = 6#4 ∨ x = 7#4 ∨
    x = 8#4 ∨ x = 9#4 ∨ x = 10#4 ∨ x = 11#4 ∨ x = 12#4 ∨ x = 13#4 ∨ x = 14#4 ∨ x = 15#4 := by decide

/-- The values of a 3-bit field. -/
theorem threeBits_cases : ∀ x : BitVec 3,
    x = 0#3 ∨ x = 1#3 ∨ x = 2#3 ∨ x = 3#3 ∨ x = 4#3 ∨ x = 5#3 ∨ x = 6#3 ∨ x = 7#3 := by decide

/-- A data-processing word by its fields; the comparisons have S = 1. -/
theorem encodes_decodeDataProc (c : Cond) (w : Word) (op2 : Operand2)
    (hs : field w 23 2 = 0b10#2 → flag w 20 = true) :
    Encodes (decodeDataProc c w op2)
      (.arm (encDataProc c (field w 21 4) (flag w 20) (field w 16 4) (field w 12 4) op2)) := by
  have hop : field w 23 2 = (field w 21 4).extractLsb' 2 2 := by rw [field_field _ (by decide)]
  rw [hop] at hs
  unfold decodeDataProc
  generalize field w 21 4 = op, flag w 20 = s at hs ⊢
  obtain h | h := opcode_compares_or_not op
  · simp only [List.mem_cons, List.not_mem_nil, or_false] at h
    obtain rfl | rfl | rfl | rfl := h
    all_goals
      obtain rfl := hs rfl
      exact ⟨rfl, rfl⟩
  · simp only [List.mem_cons, List.not_mem_nil, or_false] at h
    obtain rfl | rfl | rfl | rfl | rfl | rfl | rfl | rfl | rfl | rfl | rfl | rfl := h
    all_goals exact ⟨rfl, rfl⟩

/-- A single-transfer word by its fields. -/
theorem encodes_decodeSingle (c : Cond) (w : Word) (off : Offset) :
    Encodes (decodeSingle c w off)
      (.arm (encSingle c (bit (flag w 22)) (bit (flag w 20)) (flag w 24) (flag w 23) (flag w 21) (field w 16 4)
        (field w 12 4) off)) := by
  unfold decodeSingle
  generalize flag w 24 = p, flag w 22 = b, flag w 21 = wb, flag w 20 = l
  cases p <;> cases b <;> cases wb <;> cases l <;> exact ⟨rfl, rfl⟩

theorem encodes_decode000 {c : Cond} {w : Word} {i : Instr} (hc : c.bits = field w 28 4)
    (hclass : field w 25 3 = 0b000#3) (h : decode000 c w = .ok i) : Encodes i (.arm w) := by
  unfold decode000 at h
  split at h
  next h74 =>
    obtain ⟨h7, h4⟩ := Bool.and_eq_true_iff.mp h74
    split at h
    next h5 => exact encodes_decodeMultiply hc hclass h7 h5 h4 h
    next h5 => exact encodes_decodeHalf hc hclass h7 h5 h4 h
  next h74 =>
    split at h
    next hpsr => exact encodes_decodePsr hc hclass hpsr.1 hpsr.2 h
    next hdp =>
      cases h
      obtain ⟨he, hwf⟩ := encodes_decodeDataProc c w (decodeShifted w) (by simpa using hdp)
      refine ⟨he.trans (congrArg Code.arm ?_), hwf⟩
      unfold decodeShifted
      split <;> simp [encDataProc, Operand2.i, Operand2.bits, append_eq_iff, field_field, bit_flag, hc,
        ShiftType.bits_ofBits] <;> simp_all [field_succ_eq, eq_field_succ]

theorem encodes_decode001 {c : Cond} {w : Word} {i : Instr} (hc : c.bits = field w 28 4)
    (hclass : field w 25 3 = 0b001#3) (h : decode001 c w = .ok i) : Encodes i (.arm w) := by
  unfold decode001 at h
  split at h
  next hpsr =>
    repeat' split at h
    all_goals cases h
    all_goals refine ⟨congrArg Code.arm ?_, rfl⟩
    all_goals
      simp [encMsrImm, append_eq_iff, field_field, hc]
      simp_all [field_succ_eq, eq_field_succ]
  next hdp =>
    cases h
    obtain ⟨he, hwf⟩ := encodes_decodeDataProc c w (.imm (field w 8 4) (field w 0 8)) (by simpa using hdp)
    refine ⟨he.trans (congrArg Code.arm ?_), hwf⟩
    simp [encDataProc, Operand2.i, Operand2.bits, append_eq_iff, field_field, bit_flag, hc]
    simp_all [field_succ_eq, eq_field_succ]

theorem encodes_decodeArmClass {c : Cond} {w : Word} {i : Instr} (hc : c.bits = field w 28 4)
    (h : decodeArmClass c w = .ok i) : Encodes i (.arm w) := by
  unfold decodeArmClass at h
  split at h
  next hclass => exact encodes_decode000 hc hclass h
  next =>
    split at h
    next hclass => exact encodes_decode001 hc hclass h
    next =>
      split at h
      next hclass =>
        cases h
        obtain ⟨he, hwf⟩ := encodes_decodeSingle c w (.imm (field w 0 12))
        refine ⟨he.trans (congrArg Code.arm ?_), hwf⟩
        simp [encSingle, Offset.i, Offset.bits, append_eq_iff, field_field, bit_flag, hc]
        simp_all [field_succ_eq, eq_field_succ]
      next =>
        split at h
        next hclass =>
          split at h
          next h4 =>
            cases h
            refine ⟨congrArg Code.arm ?_, rfl⟩
            simp [append_eq_iff, field_field, hc]
            simp_all [field_succ_eq, eq_field_succ]
          next h4 =>
            cases h
            obtain ⟨he, hwf⟩ :=
              encodes_decodeSingle c w (.reg (field w 7 5) (ShiftType.ofBits (field w 5 2)) (field w 0 4))
            refine ⟨he.trans (congrArg Code.arm ?_), hwf⟩
            simp [encSingle, Offset.i, Offset.bits, append_eq_iff, field_field, bit_flag, hc, ShiftType.bits_ofBits]
            simp_all [field_succ_eq, eq_field_succ]
        next =>
          repeat' split at h
          all_goals cases h
          all_goals refine ⟨congrArg Code.arm ?_, rfl⟩
          all_goals
            simp [encBlock, append_eq_iff, field_field, bit_flag, hc]
            simp_all [field_succ_eq, eq_field_succ]

/-! ### The encoder on a decoded halfword -/

theorem encodes_decodeThumbAlu {h : Half} (hclass : fieldH h 10 6 = 0b010000#6) :
    Encodes (decodeThumbAlu h) (.thumb h) := by
  have key : Encodes (decodeThumbAlu h) (.thumb (encT4 (fieldH h 6 4) (fieldH h 3 3) (fieldH h 0 3))) := by
    unfold decodeThumbAlu
    generalize fieldH h 6 4 = op
    obtain rfl | rfl | rfl | rfl | rfl | rfl | rfl | rfl | rfl | rfl | rfl | rfl | rfl | rfl | rfl | rfl := fourBits_cases op
    all_goals exact ⟨rfl, rfl⟩
  obtain ⟨he, hwf⟩ := key
  refine ⟨he.trans (congrArg Code.thumb ?_), hwf⟩
  simp [encT4, append_eq_iff, field_field]
  simp_all [field_succ_eq, eq_field_succ]

theorem encodes_decodeThumb1011 {h : Half} (hclass : fieldH h 12 4 = 0b1011#4) :
    Encodes (decodeThumb1011 h) (.thumb h) := by
  have key : Encodes (decodeThumb1011 h) (.thumb (encTMisc (fieldH h 8 4) (fieldH h 0 8))) := by
    have hlow : bit (flagH h 7) ++ fieldH h 0 7 = fieldH h 0 8 := by
      rw [bit_flag]
      exact BitVec.extractLsb'_append_extractLsb'_eq_extractLsb' rfl
    rw [← hlow]
    unfold decodeThumb1011
    rw [← hlow]
    generalize fieldH h 8 4 = op
    obtain rfl | rfl | rfl | rfl | rfl | rfl | rfl | rfl | rfl | rfl | rfl | rfl | rfl | rfl | rfl | rfl := fourBits_cases op
    all_goals exact ⟨rfl, rfl⟩
  obtain ⟨he, hwf⟩ := key
  refine ⟨he.trans (congrArg Code.thumb ?_), hwf⟩
  simp [encTMisc, append_eq_iff, field_field]
  simp_all [field_succ_eq, eq_field_succ]

theorem encodes_decodeThumb010 {h : Half} {i : Instr} (hclass : fieldH h 13 3 = 0b010#3)
    (hi : decodeThumb010 h = .ok i) : Encodes i (.thumb h) := by
  unfold decodeThumb010 at hi
  split at hi
  next h12 =>
    have key : Encodes i (.thumb (encT78 (fieldH h 9 3) (fieldH h 6 3) (fieldH h 3 3) (fieldH h 0 3))) := by
      generalize fieldH h 9 3 = op at hi ⊢
      obtain rfl | rfl | rfl | rfl | rfl | rfl | rfl | rfl := threeBits_cases op
      all_goals
        cases hi
        exact ⟨rfl, rfl⟩
    obtain ⟨he, hwf⟩ := key
    refine ⟨he.trans (congrArg Code.thumb ?_), hwf⟩
    simp [encT78, append_eq_iff, field_field]
    simp_all [field_succ_eq, eq_field_succ]
  next h12 =>
    split at hi
    next h11 =>
      cases hi
      refine ⟨congrArg Code.thumb ?_, rfl⟩
      simp [append_eq_iff, field_field]
      simp_all [field_succ_eq, eq_field_succ]
    next h11 =>
      split at hi
      next h10 =>
        unfold decodeThumbHi at hi
        repeat' split at hi
        all_goals cases hi
        all_goals refine ⟨congrArg Code.thumb ?_, rfl⟩
        all_goals
          simp [encT5, append_eq_iff, field_field, field_append_low, field_append_high]
          simp_all [field_succ_eq, eq_field_succ]
      next h10 =>
        cases hi
        apply encodes_decodeThumbAlu
        simp_all [field_succ_eq]

theorem encodes_decodeThumb110 {h : Half} (hclass : fieldH h 13 3 = 0b110#3) :
    Encodes (decodeThumb110 h) (.thumb h) := by
  unfold decodeThumb110
  split
  next h12 =>
    have key : ∀ x : BitVec 4, x = fieldH h 8 4 → encT16 x (fieldH h 0 8) = h := by
      rintro x rfl
      simp [encT16, append_eq_iff, field_field]
      simp_all [field_succ_eq, eq_field_succ]
    split
    next hc => exact ⟨congrArg Code.thumb (key _ (by revert hc; generalize fieldH h 8 4 = x; revert x; decide)), rfl⟩
    next hc => exact ⟨congrArg Code.thumb (key _ (Cond.eq_bits_of_ofBits hc)), rfl⟩
    next c hal hc =>
      exact ⟨congrArg Code.thumb (key _ (Cond.eq_bits_of_ofBits hc)), by simpa [Instr.wellFormed] using hal⟩
  next h12 =>
    split
    all_goals
      refine ⟨congrArg Code.thumb ?_, rfl⟩
      simp [encT15, append_eq_iff, field_field]
      simp_all [field_succ_eq, eq_field_succ]

theorem encodes_decodeThumb000 {h : Half} (hclass : fieldH h 13 3 = 0b000#3) :
    Encodes (decodeThumb000 h) (.thumb h) := by
  unfold decodeThumb000
  repeat' split
  all_goals
    refine ⟨congrArg Code.thumb ?_, rfl⟩
    simp [encT1, encT2, append_eq_iff, field_field]
    simp_all [field_succ_eq, eq_field_succ]

theorem encodes_decodeThumb001 {h : Half} (hclass : fieldH h 13 3 = 0b001#3) :
    Encodes (decodeThumb001 h) (.thumb h) := by
  unfold decodeThumb001
  repeat' split
  all_goals
    refine ⟨congrArg Code.thumb ?_, rfl⟩
    simp [encT3, append_eq_iff, field_field]
    simp_all [field_succ_eq, eq_field_succ]

theorem encodes_decodeThumb011 {h : Half} (hclass : fieldH h 13 3 = 0b011#3) :
    Encodes (decodeThumb011 h) (.thumb h) := by
  unfold decodeThumb011
  repeat' split
  all_goals
    refine ⟨congrArg Code.thumb ?_, rfl⟩
    simp [encT9, append_eq_iff, field_field]
    simp_all [field_succ_eq, eq_field_succ]

theorem encodes_decodeThumb100 {h : Half} (hclass : fieldH h 13 3 = 0b100#3) :
    Encodes (decodeThumb100 h) (.thumb h) := by
  unfold decodeThumb100
  repeat' split
  all_goals
    refine ⟨congrArg Code.thumb ?_, rfl⟩
    simp [encT10, encT11, append_eq_iff, field_field]
    simp_all [field_succ_eq, eq_field_succ]

theorem encodes_decodeThumb111 {h : Half} (hclass : fieldH h 13 3 = 0b111#3) :
    Encodes (decodeThumb111 h) (.thumb h) := by
  unfold decodeThumb111
  repeat' split
  all_goals
    refine ⟨congrArg Code.thumb ?_, rfl⟩
    simp [encT18, append_eq_iff]
    simp_all [field_succ_eq, eq_field_succ]

theorem encodes_decodeThumb101 {h : Half} (hclass : fieldH h 13 3 = 0b101#3) :
    Encodes (decodeThumb101 h) (.thumb h) := by
  unfold decodeThumb101
  split
  next h12 =>
    apply encodes_decodeThumb1011
    simp_all [field_succ_eq]
  next h12 =>
    split
    all_goals
      refine ⟨congrArg Code.thumb ?_, rfl⟩
      simp [encT12, append_eq_iff, field_field]
      simp_all [field_succ_eq, eq_field_succ]

theorem encodes_decodeThumb {h : Half} {i : Instr} (hi : decodeThumb h = .ok i) : Encodes i (.thumb h) := by
  unfold decodeThumb at hi
  repeat' split at hi
  case' isTrue hclass => cases hi; exact encodes_decodeThumb000 hclass
  case' isFalse.isTrue hclass => cases hi; exact encodes_decodeThumb001 hclass
  case' isFalse.isFalse.isTrue hclass => exact encodes_decodeThumb010 hclass hi
  case' isFalse.isFalse.isFalse.isTrue hclass => cases hi; exact encodes_decodeThumb011 hclass
  case' isFalse.isFalse.isFalse.isFalse.isTrue hclass => cases hi; exact encodes_decodeThumb100 hclass
  case' isFalse.isFalse.isFalse.isFalse.isFalse.isTrue hclass => cases hi; exact encodes_decodeThumb101 hclass
  case' isFalse.isFalse.isFalse.isFalse.isFalse.isFalse.isTrue hclass =>
    cases hi; exact encodes_decodeThumb110 hclass
  case' isFalse.isFalse.isFalse.isFalse.isFalse.isFalse.isFalse =>
    cases hi
    apply encodes_decodeThumb111
    generalize fieldH h 13 3 = x at *
    have hx := threeBits_cases x
    simp_all only [false_or]

/-- Settles O2: the fields a class reads, put together by its encoding form, are the word. -/
theorem decodeThenEncode : Obligations.DecodeThenEncode := by
  constructor
  · intro w i h
    unfold decodeArm at h
    split at h
    next => cases h
    next c hc => exact encodes_decodeArmClass (Cond.eq_bits_of_ofBits hc) h
  · intro h i hi
    exact encodes_decodeThumb hi

/-- Settles O3: each word decodes by evaluation. -/
theorem specWordsDecode : Obligations.SpecWordsDecode := by
  refine ⟨rfl, rfl, rfl, rfl, rfl, rfl, rfl, rfl, rfl, rfl, rfl, rfl⟩

/-- A word under a mask, as the field of all its bits. -/
theorem masked_eq_iff (w m v : Word) : w &&& m = v ↔ (w &&& m).extractLsb' 0 32 = v := by
  rw [BitVec.extractLsb'_eq_self]

/-- A word of the multiply space that is none of its rows (R254, R272). -/
theorem decodeMultiply_reserved (c : Cond) {w : Word} (hclass : field w 25 3 = 0#3) (h4 : field w 4 4 = 0b1001#4)
    (hmul : w &&& 0x0FC000F0#32 ≠ 0x00000090#32) (hlong : w &&& 0x0F8000F0#32 ≠ 0x00800090#32)
    (hswp : w &&& 0x0FB00FF0#32 ≠ 0x01000090#32) :
    decodeMultiply c w = .error (if w &&& 0x0FB000F0#32 = 0x01000090#32 then .unpredictable else .illegal) := by
  simp only [ne_eq, masked_eq_iff, field_succ_eq, BitVec.getLsbD_and] at *
  simp_all [decodeMultiply, field_succ_eq]
  repeat' split
  all_goals simp_all

/-- Settles O4: the reserved words fall through every row of their class. -/
theorem reservedWordsAreRejected : Obligations.ReservedWordsAreRejected := by
  refine ⟨fun w h => ?_, fun h hop hbits => ?_, fun w hc hclass h4 hmul hlong hswp => ?_⟩
  · unfold decodeArm
    rw [show field w 28 4 = 15#4 from h]
    rfl
  · simp_all [decodeThumb, decodeThumb010, decodeThumbHi, field_succ_eq]
    obtain h7 | h0 := hbits
    · simp [h7]
    · exact fun _ => h0
  · have h5 : field w 5 2 = 0b00#2 ∧ flag w 7 = true ∧ flag w 4 = true := by
      simp_all [field_succ_eq]
    obtain ⟨c, hcond⟩ : ∃ c, Cond.ofBits (field w 28 4) = some c := by
      rw [← Option.isSome_iff_exists]
      change field w 28 4 ≠ 15#4 at hc
      generalize field w 28 4 = x at hc ⊢
      revert x
      decide
    simpa [decodeArm, hcond, decodeArmClass, hclass, decode000, h5] using
      decodeMultiply_reserved c hclass h4 hmul hlong hswp

end Sys2Proof
end

section
/-! What an instruction may do, said once: its body keeps the fixed parts of the machine and the program counter, and it
ends by advancing, by a jump, or in the software interrupt. The statements about every instruction and every step follow. -/

namespace Sys2Proof.Machine

/-! ### The body of an instruction -/

/-- What every part of a step keeps. -/
structure FrameStep (s t : State) : Prop where
  params : t.params = s.params
  biosLen : t.biosLen = s.biosLen
  romLen : t.romLen = s.romLen
  fault : t.fault = s.fault
  backend : t.save.backend = s.save.backend
  cycles : s.cycles ≤ t.cycles
  rom : ∀ k, readOnlyKey k → t.mem.byte k = s.mem.byte k
  ok : DevicesOk s → DevicesOk t
  idle : Idle s → Idle t
  written : ∀ r, s.isWritten r = true → t.isWritten r = true

/-- The mode stays, or a privileged mode changes to a legal one. -/
def ModeStep (p q : Psr) : Prop := q.mode = p.mode ∨ (p.mode ≠ modeUsr ∧ legalMode q.mode = true)

/-- What an instruction does before it ends: program counter and encoding mode stay. -/
structure BodyStep (s t : State) : Prop extends FrameStep s t where
  pc : t.cpu.pc = s.cpu.pc
  thumb : t.cpu.cpsr.t = s.cpu.cpsr.t
  mode : ModeStep s.cpu.cpsr t.cpu.cpsr

theorem FrameStep.refl (s : State) : FrameStep s s :=
  ⟨rfl, rfl, rfl, rfl, rfl, Nat.le_refl _, fun _ _ => rfl, id, id, fun _ => id⟩

theorem FrameStep.trans {s t u : State} (h : FrameStep s t) (k : FrameStep t u) : FrameStep s u where
  params := k.params.trans h.params
  biosLen := k.biosLen.trans h.biosLen
  romLen := k.romLen.trans h.romLen
  fault := k.fault.trans h.fault
  backend := k.backend.trans h.backend
  cycles := Nat.le_trans h.cycles k.cycles
  rom := fun j hj => (k.rom j hj).trans (h.rom j hj)
  ok := k.ok ∘ h.ok
  idle := k.idle ∘ h.idle
  written := fun r => k.written r ∘ h.written r

theorem ModeStep.refl (p : Psr) : ModeStep p p := .inl rfl

theorem ModeStep.trans {p q r : Psr} (h : ModeStep p q) (k : ModeStep q r) : ModeStep p r := by
  unfold ModeStep at *
  obtain h | ⟨hp, hq⟩ := h
  · rwa [h] at k
  · exact .inr ⟨hp, k.elim (fun e => by rwa [e]) And.right⟩

/-- A legal mode stays legal. -/
theorem ModeStep.legal {p q : Psr} (h : ModeStep p q) (hp : legalMode p.mode = true) : legalMode q.mode = true :=
  h.elim (fun e => by rwa [e]) And.right

/-- User mode stays. -/
theorem ModeStep.user {p q : Psr} (h : ModeStep p q) (hp : p.mode = modeUsr) : q.mode = modeUsr :=
  h.elim (·.trans hp) fun k => absurd hp k.1

theorem BodyStep.refl (s : State) : BodyStep s s := ⟨.refl s, rfl, rfl, .refl _⟩

theorem BodyStep.trans {s t u : State} (h : BodyStep s t) (k : BodyStep t u) : BodyStep s u :=
  ⟨h.toFrameStep.trans k.toFrameStep, k.pc.trans h.pc, k.thumb.trans h.thumb, h.mode.trans k.mode⟩

/-- A step of the devices is one. -/
theorem FrameStep.of_event {s t : State} (h : EventStep s t) : FrameStep s t where
  params := h.device.params
  biosLen := h.device.biosLen
  romLen := h.device.romLen
  fault := h.device.fault
  backend := h.device.backend
  cycles := h.device.cycles
  rom := h.device.rom
  ok := h.device.ok
  idle := h.idle
  written := fun r => by cases r <;> simp [State.isWritten, h.device.cpu]

theorem BodyStep.of_event {s t : State} (h : EventStep s t) : BodyStep s t :=
  ⟨.of_event h, by rw [h.device.cpu], by rw [h.device.cpu], .inl (by rw [h.device.cpu])⟩

/-- A change of the CPU alone that keeps the written marks. -/
theorem FrameStep.of_cpu {s : State} {c : Cpu}
    (hw : ∀ r, s.isWritten r = true → State.isWritten { s with cpu := c } r = true) : FrameStep s { s with cpu := c } :=
  ⟨rfl, rfl, rfl, rfl, rfl, Nat.le_refl _, fun _ _ => rfl, fun h => h.congr rfl rfl rfl rfl rfl, id, hw⟩

theorem FrameStep.setPc (s : State) (a : Word) : FrameStep s (s.setPc a) :=
  .of_cpu fun r => by cases r <;> exact id

theorem FrameStep.setCpsr (s : State) (p : Psr) : FrameStep s (s.setCpsr p) :=
  .of_cpu fun r => by cases r <;> exact id

theorem FrameStep.bill (s : State) (k : Nat) : FrameStep s (s.bill k) := .of_event (.of_dma (.bill s k) rfl)

theorem BodyStep.bill (s : State) (k : Nat) : BodyStep s (s.bill k) := .of_event (.of_dma (.bill s k) rfl)

theorem BodyStep.billCode (s : State) (seq : Bool) : BodyStep s (s.billCode seq) := .bill s _

theorem FrameStep.billRefill (s : State) (k : Word) : FrameStep s (s.billRefill k) :=
  (FrameStep.bill s _).trans (.bill _ _)

theorem BodyStep.read {s t : State} (h : ReadStep s t) : BodyStep s t :=
  .of_event (.of_dma (.read h) (by rw [h.eq]))

theorem BodyStep.draw (s : State) : BodyStep s s.draw.2 := .read (.draw s)

theorem BodyStep.setRegOf (s : State) (m : BitVec 5) (i : RegNo) (v : Word) : BodyStep s (s.setRegOf m i v) := by
  by_cases hi : i = 15#4
  · rw [hi, State.setRegOf_pc]
    exact .refl s
  · have hw : ∀ r, s.isWritten r = true → (s.setRegOf m i v).isWritten r = true := by
      intro r
      cases r with
      | general k => simp only [State.isWritten, State.written_setRegOf s m i v k hi]; simp +contextual
      | saved k => simp [State.isWritten, State.setRegOf, hi]
    unfold State.setRegOf at hw ⊢
    rw [if_neg hi] at hw ⊢
    exact ⟨.of_cpu hw, rfl, rfl, .inl rfl⟩

theorem BodyStep.setReg (s : State) (i : RegNo) (v : Word) : BodyStep s (s.setReg i v) := .setRegOf s _ i v

theorem BodyStep.setSpsrOf (s : State) (m : BitVec 5) (p : Psr) : BodyStep s (s.setSpsrOf m p) := by
  unfold State.setSpsrOf
  split
  next k _ =>
    refine ⟨.of_cpu fun r => ?_, rfl, rfl, .inl rfl⟩
    cases r with
    | general k => exact id
    | saved j =>
      intro h
      change (s.cpu.spsrWritten.set k.val true k.isLt)[j.val] = true
      rw [Vector.getElem_set]
      split
      · rfl
      · exact h
  next => exact .refl s

/-- A change of CPSR that keeps the encoding mode. -/
theorem BodyStep.setCpsr (s : State) {p : Psr} (ht : p.t = s.cpu.cpsr.t) (hm : ModeStep s.cpu.cpsr p) :
    BodyStep s (s.setCpsr p) := ⟨.setCpsr s p, rfl, ht, hm⟩

theorem BodyStep.setFlagsIf (s : State) (b : Bool) (o : AddOut) : BodyStep s (s.setFlagsIf b o) := by
  unfold State.setFlagsIf
  split
  · exact .setCpsr s rfl (.inl rfl)
  · exact .refl s

theorem BodyStep.setMulFlagsIf (s : State) (b : Bool) (v : Word) : BodyStep s (s.setMulFlagsIf b v) := by
  unfold State.setMulFlagsIf
  split
  · exact (BodyStep.draw s).trans (.setCpsr _ rfl (.inl rfl))
  · exact .refl s

theorem BodyStep.setMulLongFlagsIf (s : State) (b : Bool) (v : BitVec 64) : BodyStep s (s.setMulLongFlagsIf b v) := by
  unfold State.setMulLongFlagsIf
  split
  · exact ((BodyStep.draw s).trans (.draw _)).trans (.setCpsr _ rfl (.inl rfl))
  · exact .refl s

theorem BodyStep.memRead (s : State) (a : Word) (w : Width) (seq : Bool) : BodyStep s (s.memRead a w seq).2 :=
  (BodyStep.bill s _).trans (.read (State.readRaw_readStep _ _ _ _))

theorem BodyStep.memWrite {s t : State} {a v : Word} {w : Width} {seq : Bool} (h : s.memWrite a w v seq = .ok t) :
    BodyStep s t := .of_event (.memWrite h)

theorem BodyStep.loadWords (s : State) (n : Nat) (a : Word) (seq : Bool) : BodyStep s (s.loadWords n a seq).2 := by
  induction n generalizing s a seq with
  | zero => exact .refl s
  | succ n ih => exact (BodyStep.memRead s _ _ seq).trans (ih _ _ _)

theorem BodyStep.storeWords {s t : State} {vs : List Word} {a : Word} {seq : Bool}
    (h : s.storeWords vs a seq = .ok t) : BodyStep s t := by
  induction vs generalizing s a seq with
  | nil => cases h; exact .refl _
  | cons v vs ih =>
    obtain ⟨u, hu, ht⟩ := bind_ok h
    exact (BodyStep.memWrite hu).trans (ih ht)

theorem BodyStep.assignRegs (s : State) (m : BitVec 5) (l : List (RegNo × Word)) : BodyStep s (s.assignRegs m l) := by
  induction l generalizing s with
  | nil => exact .refl s
  | cons e l ih => exact (BodyStep.setRegOf s m e.1 e.2).trans (ih _)

theorem BodyStep.writeBack (s : State) (x : Access) (rn : RegNo) : BodyStep s (s.writeBack x rn) := by
  unfold State.writeBack
  split
  · exact .setReg s rn _
  · exact .refl s

/-! ### The end of an instruction -/

/-- An instruction that goes on with the next one. -/
def Advances (s t : State) : Prop := ∃ u, BodyStep s u ∧ t = u.advance

/-- An instruction that writes the program counter, and with it CPSR or not. -/
def Jumps (s t : State) : Prop :=
  ∃ u p v k, BodyStep s u ∧ ModeStep s.cpu.cpsr p ∧ t = ((u.setCpsr p).branchTo v).billRefill k

theorem BodyStep.jumps {s u : State} (h : BodyStep s u) (v k : Word) : Jumps s ((u.branchTo v).billRefill k) :=
  ⟨u, u.cpu.cpsr, v, k, h, h.mode, rfl⟩

/-- A mode with an SPSR is not User mode. -/
theorem ModeStep.of_restorable {s : State} {p : Psr} (h : s.restorable = some p) : ModeStep s.cpu.cpsr p := by
  unfold State.restorable State.spsr at h
  obtain ⟨hs, hl⟩ := Option.filter_eq_some_iff.mp h
  refine .inr ⟨fun hm => ?_, hl⟩
  rw [hm] at hs
  cases hs

/-- A restore of CPSR, as the state before the body checks it. -/
theorem BodyStep.restores {s u : State} {p : Psr} (h : BodyStep s u) (hp : s.restorable = some p) (v k : Word) :
    Jumps s (((u.setCpsr p).branchTo v).billRefill k) := ⟨u, p, v, k, h, .of_restorable hp, rfl⟩

theorem State.skip_advances (s : State) : Advances s s.skip := ⟨_, .billCode s true, rfl⟩

theorem State.writeResult_ends {i : Instr} {sf : Bool} {rd : RegNo} {op2 : Operand2} {o : AddOut} {s t : State}
    (h : s.writeResult i sf rd op2 o = .ok t) : Advances s t ∨ rd = 15#4 ∧ Jumps s t := by
  have hb : BodyStep s (s.billDataProc op2) := (BodyStep.billCode s true).trans (.bill _ _)
  unfold State.writeResult at h
  split at h
  · cases h
  · split at h
    next hrd =>
      refine .inr ⟨hrd, ?_⟩
      split at h
      · split at h
        next => cases h
        next p hp =>
          cases h
          exact hb.restores hp _ _
      · cases h
        exact hb.jumps _ _
    next =>
      cases h
      exact .inl ⟨_, (hb.trans (.setReg _ rd _)).trans (.setFlagsIf _ sf o), rfl⟩

theorem State.testResult_ends {i : Instr} {op2 : Operand2} {o : AddOut} {s t : State}
    (h : s.testResult i op2 o = .ok t) : Advances s t := by
  unfold State.testResult at h
  split at h
  · cases h
  · cases h
    exact ⟨_, ((BodyStep.billCode s true).trans (.bill _ _)).trans (.setFlagsIf _ true o), rfl⟩

theorem State.writeMul_ends {i : Instr} {bad sf : Bool} {rd : RegNo} {n : Nat} {v : Word} {s t : State}
    (h : s.writeMul i bad sf rd n v = .ok t) : Advances s t := by
  unfold State.writeMul at h
  split at h
  · cases h
  · cases h
    exact ⟨_, (((BodyStep.billCode s true).trans (.bill _ n)).trans (.setReg _ rd v)).trans (.setMulFlagsIf _ sf v), rfl⟩

theorem State.writeLong_ends {i : Instr} {sf : Bool} {rdHi rdLo rs rm : RegNo} {n : Nat} {v : BitVec 64} {s t : State}
    (h : s.writeLong i sf rdHi rdLo rs rm n v = .ok t) : Advances s t := by
  unfold State.writeLong at h
  split at h
  · cases h
  · cases h
    exact ⟨_, ((((BodyStep.billCode s true).trans (.bill _ n)).trans (.setReg _ rdLo _)).trans
      (.setReg _ rdHi _)).trans (.setMulLongFlagsIf _ sf v), rfl⟩

/-- A read of a load: one or the other read of memory. -/
def Reading (read : Word → State → Word × State) : Prop := ∀ a s, BodyStep s (read a s).2

theorem reading_word : Reading readWord := fun a s => .memRead s a .word false
theorem reading_byte : Reading readByte := fun a s => .memRead s a .byte false
theorem reading_half : Reading readHalf := fun a s => .memRead s a .half false
theorem reading_signedByte : Reading readSignedByte := fun a s => .memRead s a .byte false
theorem reading_signedHalf : Reading readSignedHalf := fun a s => by
  unfold readSignedHalf
  split
  · exact .memRead s a .byte false
  · exact .memRead s a .half false

theorem State.loadReg_ends {read : Word → State → Word × State} (hr : Reading read) (x : Access) (rn rd : RegNo)
    (s : State) : (rd ≠ 15#4 ∧ Advances s (s.loadReg x rn rd read)) ∨ rd = 15#4 ∧ Jumps s (s.loadReg x rn rd read) := by
  have hb := ((((BodyStep.billCode s true).trans (hr x.addr _)).trans (.bill _ 1)).trans (.writeBack _ x rn))
  unfold State.loadReg
  by_cases hrd : rd = 15#4
  · rw [if_pos hrd]
    exact .inr ⟨hrd, hb.jumps _ _⟩
  · rw [if_neg hrd]
    exact .inl ⟨hrd, _, hb.trans (.setReg _ rd _), rfl⟩

theorem State.single_ends {i : Instr} {x : Access} {rn rd : RegNo} {off : Offset} {byte : Bool}
    {read : Word → State → Word × State} {s t : State} (hr : Reading read)
    (h : s.single i x rn rd off byte read = .ok t) : Advances s t ∨ rd = 15#4 ∧ byte = false ∧ Jumps s t := by
  unfold State.single at h
  split at h
  · cases h
  next hbad =>
    cases h
    obtain ⟨-, h⟩ | ⟨hrd, h⟩ := s.loadReg_ends hr x rn rd
    · exact .inl h
    · refine .inr ⟨hrd, ?_, h⟩
      simp only [badLoad, hrd, Bool.or_eq_true, not_or] at hbad
      simpa using hbad.2

theorem State.half_ends {i : Instr} {x : Access} {p w : Bool} {rn rd : RegNo} {badRm : Bool}
    {read : Word → State → Word × State} {s t : State} (hr : Reading read)
    (h : s.half i x p w rn rd badRm read = .ok t) : Advances s t := by
  unfold State.half at h
  split at h
  · cases h
  next hbad =>
    cases h
    obtain ⟨-, h⟩ | ⟨hrd, -⟩ := s.loadReg_ends hr x rn rd
    · exact h
    · exact absurd (by simp [badHalf, hrd]) hbad

theorem State.storeReg_ends {x : Access} {rn rd : RegNo} {w : Width} {s t : State}
    (h : s.storeReg x rn rd w = .ok t) : Advances s t := by
  obtain ⟨u, hu, ht⟩ := bind_ok h
  cases ht
  exact ⟨_, ((BodyStep.billCode s false).trans (.memWrite hu)).trans (.writeBack _ x rn), rfl⟩

theorem State.singleStore_ends {i : Instr} {x : Access} {rn rd : RegNo} {off : Offset} {w : Width} {s t : State}
    (h : s.singleStore i x rn rd off w = .ok t) : Advances s t := by
  unfold State.singleStore at h
  split at h
  · cases h
  · exact State.storeReg_ends h

theorem State.halfStore_ends {i : Instr} {x : Access} {p w : Bool} {rn rd : RegNo} {badRm : Bool} {s t : State}
    (h : s.halfStore i x p w rn rd badRm = .ok t) : Advances s t := by
  unfold State.halfStore at h
  split at h
  · cases h
  · exact State.storeReg_ends h

theorem State.swap_ends {i : Instr} {rn rd rm : RegNo} {w : Width} {s t : State} (h : s.swap i rn rd rm w = .ok t) :
    Advances s t := by
  unfold State.swap at h
  split at h
  · cases h
  · obtain ⟨u, hu, ht⟩ := bind_ok h
    cases ht
    exact ⟨_, ((((BodyStep.billCode s true).trans (.memRead _ _ w false)).trans (.memWrite hu)).trans
      (.bill _ 1)).trans (.setReg _ rd _), rfl⟩

theorem State.storeBlock_ends {p u sBit w : Bool} {rn : RegNo} {list : BitVec 16} {s t : State}
    (h : s.storeBlock p u sBit w rn list = .ok t) : Advances s t := by
  obtain ⟨v, hv, ht⟩ := bind_ok h
  cases ht
  refine ⟨_, ((BodyStep.billCode s false).trans (.storeWords hv)).trans ?_, rfl⟩
  split
  · exact .setReg v rn _
  · exact .refl v

theorem State.loadBlock_ends (p u sBit w : Bool) (rn : RegNo) (list : BitVec 16) (s : State) :
    (list.getLsbD 15 = false ∧ Advances s (s.loadBlock p u sBit w rn list)) ∨
      list.getLsbD 15 = true ∧ Jumps s (s.loadBlock p u sBit w rn list) := by
  have hb : ∀ (t : State), BodyStep t (if w then t.setReg rn (blockWriteBack u (s.reg 8#32 rn) (regList list).length) else t) := by
    intro t
    split
    · exact .setReg t rn _
    · exact .refl t
  have hbody := (((BodyStep.billCode s true).trans (.loadWords _ (regList list).length
    (blockStart p u (s.reg 8#32 rn) (regList list).length) false)).trans (.bill _ 1)).trans (hb _)
  have hregs := fun m l => hbody.trans (.assignRegs _ m l)
  unfold State.loadBlock
  cases hlast : list.getLsbD 15
  · exact .inl ⟨rfl, _, hregs _ _, rfl⟩
  · refine .inr ⟨rfl, ?_⟩
    simp only [if_true]
    cases sBit
    · exact (hregs _ _).jumps _ _
    · simp only [if_true]
      split
      next q hq => exact (hregs _ _).restores hq _ _
      next => exact (hregs _ _).jumps _ _


theorem State.finishLow_advances (rd : LowReg) (v : Word) {p : Psr} (n : Nat) {s : State}
    (ht : p.t = s.cpu.cpsr.t) (hm : p.mode = s.cpu.cpsr.mode) : Advances s (s.finishLow rd v p n) := by
  have hcpsr : (((s.billCode true).bill n).setReg rd.up v).cpu.cpsr = s.cpu.cpsr := State.setRegOf_cpu_cpsr _ _ _ _
  exact ⟨_, (((BodyStep.billCode s true).trans (.bill _ n)).trans (.setReg _ rd.up v)).trans
    (.setCpsr _ (by rw [hcpsr, ht]) (.inl (by rw [hcpsr, hm]))), rfl⟩

theorem State.finishTest_advances {p : Psr} {s : State} (ht : p.t = s.cpu.cpsr.t) (hm : p.mode = s.cpu.cpsr.mode) :
    Advances s (s.finishTest p) := ⟨_, (BodyStep.billCode s true).trans (.setCpsr _ ht (.inl hm)), rfl⟩

theorem State.branch_jumps (v : Word) (s : State) : Jumps s (s.branch v) := (BodyStep.billCode s true).jumps _ _

theorem State.exchange_jumps {i : Instr} {v : Word} {s t : State} (h : s.exchange i v = .ok t) : Jumps s t := by
  unfold State.exchange at h
  split at h
  · cases h
    exact ⟨s.billCode true, { s.cpu.cpsr with t := true }, v, 2#32, .billCode s true, .inl rfl, rfl⟩
  · split at h
    · cases h
    · cases h
      exact ⟨s.billCode true, { s.cpu.cpsr with t := false }, v, 4#32, .billCode s true, .inl rfl, rfl⟩

theorem State.finishHi_ends (rd : RegNo) (v : Word) (s : State) :
    Advances s (s.finishHi rd v) ∨ rd = 15#4 ∧ Jumps s (s.finishHi rd v) := by
  unfold State.finishHi
  split
  next hrd => exact .inr ⟨hrd, s.branch_jumps v⟩
  next => exact .inl ⟨_, (BodyStep.billCode s true).trans (.setReg _ rd v), rfl⟩

theorem State.loadLow_advances {read : Word → State → Word × State} (hr : Reading read) (a : Word) (rd : LowReg)
    (s : State) : Advances s (s.loadLow a rd read) :=
  ⟨_, (((BodyStep.billCode s true).trans (hr a _)).trans (.bill _ 1)).trans (.setReg _ rd.up _), rfl⟩

theorem State.storeLow_ends {a : Word} {rd : LowReg} {w : Width} {s t : State} (h : s.storeLow a rd w = .ok t) :
    Advances s t := by
  obtain ⟨u, hu, ht⟩ := bind_ok h
  cases ht
  exact ⟨_, (BodyStep.billCode s false).trans (.memWrite hu), rfl⟩

theorem State.push_ends {r : Bool} {list : BitVec 8} {s t : State} (h : s.push r list = .ok t) : Advances s t := by
  obtain ⟨u, hu, ht⟩ := bind_ok h
  cases ht
  exact ⟨_, ((BodyStep.billCode s false).trans (.storeWords hu)).trans (.setReg u 13#4 _), rfl⟩

theorem State.stmia_ends {rb : LowReg} {list : BitVec 8} {s t : State} (h : s.stmia rb list = .ok t) :
    Advances s t := by
  obtain ⟨u, hu, ht⟩ := bind_ok h
  cases ht
  exact ⟨_, ((BodyStep.billCode s false).trans (.storeWords hu)).trans (.setReg u rb.up _), rfl⟩

theorem State.pop_ends (r : Bool) (list : BitVec 8) (s : State) :
    (r = false ∧ Advances s (s.pop r list)) ∨ r = true ∧ Jumps s (s.pop r list) := by
  have hb := fun l => ((((BodyStep.billCode s true).trans (.loadWords _ (stackCount r list) (s.reg 4#32 13#4) false)).trans
    (.bill _ 1)).trans (.setReg _ 13#4 (s.reg 4#32 13#4 + fourTimes (stackCount r list)))).trans
    (.assignRegs _ s.cpu.cpsr.mode l)
  cases r
  · exact .inl ⟨rfl, _, hb _, rfl⟩
  · exact .inr ⟨rfl, (hb _).jumps _ _⟩

theorem State.ldmia_advances (rb : LowReg) (list : BitVec 8) (s : State) : Advances s (s.ldmia rb list) := by
  have hb := ((BodyStep.billCode s true).trans (.loadWords _ (lowList list).length (s.low rb) false)).trans (.bill _ 1)
  unfold State.ldmia
  cases list.getLsbD rb.toNat
  · exact ⟨_, (hb.trans (.setReg _ rb.up _)).trans (.assignRegs _ _ _), rfl⟩
  · exact ⟨_, hb.trans (.assignRegs _ _ _), rfl⟩

theorem State.moveFromPsr_ends {i : Instr} {rd : RegNo} {p : Option Psr} {s t : State}
    (h : s.moveFromPsr i rd p = .ok t) : Advances s t := by
  unfold State.moveFromPsr at h
  split at h
  · cases h
  · split at h
    · cases h
    · cases h
      exact ⟨_, (BodyStep.billCode s true).trans (.setReg _ rd _), rfl⟩

theorem State.msrSpsr_ends {i : Instr} {mask : BitVec 4} {v : Word} {s t : State} (h : s.msrSpsr i mask v = .ok t) :
    Advances s t := by
  unfold State.msrSpsr at h
  split at h
  · cases h
  · cases h
    exact ⟨_, (BodyStep.billCode s true).trans (.setSpsrOf _ _ _), rfl⟩

/-- MSR keeps the encoding mode, and in User mode the mode. -/
theorem State.msrCpsr_ends {i : Instr} {mask : BitVec 4} {v : Word} {s t : State} (h : s.msrCpsr i mask v = .ok t) :
    Advances s t := by
  unfold State.msrCpsr at h
  dsimp only at h
  split at h
  · cases h
  next hbad =>
    cases h
    have key : (msrValue mask (s.cpu.cpsr.mode != modeUsr) v s.cpu.cpsr).t = s.cpu.cpsr.t ∧
        ModeStep s.cpu.cpsr (msrValue mask (s.cpu.cpsr.mode != modeUsr) v s.cpu.cpsr) := by
      unfold msrValue ModeStep
      dsimp only
      generalize hq : (if mask.getLsbD 3 = true then s.cpu.cpsr.setFlagBits v else s.cpu.cpsr) = q
      have hqt : q.t = s.cpu.cpsr.t ∧ q.mode = s.cpu.cpsr.mode := by
        rw [← hq]
        split <;> exact ⟨rfl, rfl⟩
      split
      next hctl =>
        rw [hctl, Bool.true_and, Bool.or_eq_true, not_or] at hbad
        obtain ⟨hl, ht⟩ := hbad
        simp only [Bool.and_eq_true, bne_iff_ne, ne_eq] at hctl
        exact ⟨by simpa [Psr.setControlBits] using ht, .inr ⟨hctl.2, by simpa [Psr.setControlBits] using hl⟩⟩
      next => exact ⟨hqt.1, .inl hqt.2⟩
    exact ⟨_, (BodyStep.billCode s true).trans (.setCpsr _ key.1 key.2), rfl⟩


/-! ### Every instruction -/

theorem armCond_ends {c : Cond} {s t : State} {body : Except Fault State} (h : armCond c s body = .next t) :
    Advances s t ∨ body = .ok t := by
  unfold armCond at h
  split at h
  · cases body with
    | error f => cases h
    | ok u => cases h; exact .inr rfl
  · cases h
    exact .inl s.skip_advances

theorem answer_next {x : Except Fault State} {t : State} (h : answer x = .next t) : x = .ok t := by
  cases x with
  | error f => cases h
  | ok u => cases h; rfl

/-- How an instruction may end. -/
def Ends (i : Instr) (s t : State) : Prop :=
  Advances s t ∨ (i.writesPc = true ∧ Jumps s t) ∨
    (((∃ c n, i = .swi c n) ∨ ∃ n, i = .tSwi n) ∧ t = s.softwareInterrupt)

/-- An ARM instruction, by its body. -/
theorem ends_armCond {i : Instr} {c : Cond} {s t : State} {body : Except Fault State}
    (hbody : body = .ok t → Ends i s t) (h : armCond c s body = .next t) : Ends i s t :=
  (armCond_ends h).elim .inl hbody

/-- A data-processing instruction with a result. -/
theorem ends_writeResult {i j : Instr} {c : Cond} {sf : Bool} {rd : RegNo} {op2 : Operand2} {o : AddOut} {s t : State}
    (hi : i.writesPc = (rd == 15#4)) (h : armCond c s (s.writeResult j sf rd op2 o) = .next t) : Ends i s t :=
  ends_armCond (fun hb => (State.writeResult_ends hb).imp_right fun ⟨hrd, hj⟩ => .inl ⟨by simp [hi, hrd], hj⟩) h

/-- A word load; the byte loads cannot name r15. -/
theorem ends_single {i j : Instr} {c : Cond} {x : Access} {rn rd : RegNo} {off : Offset} {byte : Bool}
    {read : Word → State → Word × State} {s t : State} (hr : Reading read) (hi : byte = false → i.writesPc = (rd == 15#4))
    (h : armCond c s (s.single j x rn rd off byte read) = .next t) : Ends i s t :=
  ends_armCond (fun hb => (State.single_ends hr hb).imp_right fun ⟨hrd, hf, hj⟩ => .inl ⟨by simp [hi hf, hrd], hj⟩) h

/-- A body behind a check of its operands. -/
theorem ends_checked {i j : Instr} {b : Prop} [Decidable b] {s t : State} {body : Except Fault State}
    (hbody : body = .ok t → Ends i s t) (h : (if b then s.unpredictable j else body) = .ok t) : Ends i s t := by
  split at h
  · cases h
  · exact hbody h

theorem exec_ends_arm {i : Instr} {s t : State} (hi : i.isThumb = false) (h : exec i s = .next t) : Ends i s t := by
  cases i
  case and | eor | sub | rsb | add | adc | sbc | rsc | orr | mov | bic | mvn => exact ends_writeResult rfl h
  case tst | teq | cmp | cmn => exact ends_armCond (fun hb => .inl (State.testResult_ends hb)) h
  case mul | mla => exact ends_armCond (fun hb => .inl (State.writeMul_ends hb)) h
  case umull | umlal | smull | smlal => exact ends_armCond (fun hb => .inl (State.writeLong_ends hb)) h
  case ldr | ldrt => exact ends_single reading_word (fun _ => rfl) h
  case ldrb | ldrbt => exact ends_single (byte := true) reading_byte (fun hf => Bool.noConfusion hf) h
  case str | strb | strt | strbt => exact ends_armCond (fun hb => .inl (State.singleStore_ends hb)) h
  case ldrhReg | ldrhImm => exact ends_armCond (fun hb => .inl (State.half_ends reading_half hb)) h
  case ldrsbReg | ldrsbImm => exact ends_armCond (fun hb => .inl (State.half_ends reading_signedByte hb)) h
  case ldrshReg | ldrshImm => exact ends_armCond (fun hb => .inl (State.half_ends reading_signedHalf hb)) h
  case strhReg | strhImm => exact ends_armCond (fun hb => .inl (State.halfStore_ends hb)) h
  case swp | swpb => exact ends_armCond (fun hb => .inl (State.swap_ends hb)) h
  case stm => exact ends_armCond (ends_checked fun hb => .inl (State.storeBlock_ends hb)) h
  case ldm p u sf w rn list =>
    refine ends_armCond (ends_checked fun hb => ?_) h
    cases hb
    exact (State.loadBlock_ends p u sf w rn list s).elim (fun k => .inl k.2) fun k => .inr (.inl k)
  case b => exact ends_armCond (fun hb => by cases hb; exact .inr (.inl ⟨rfl, s.branch_jumps _⟩)) h
  case bl =>
    refine ends_armCond (fun hb => ?_) h
    cases hb
    exact .inr (.inl ⟨rfl, ((BodyStep.setReg s 14#4 _).trans (.billCode _ true)).jumps _ _⟩)
  case bx => exact ends_armCond (fun hb => .inr (.inl ⟨rfl, State.exchange_jumps hb⟩)) h
  case swi c n => exact ends_armCond (fun hb => by cases hb; exact .inr (.inr ⟨.inl ⟨c, n, rfl⟩, rfl⟩)) h
  case mrs => exact ends_armCond (fun hb => .inl (State.moveFromPsr_ends hb)) h
  case msrCpsrImm => exact ends_armCond (fun hb => .inl (State.msrCpsr_ends hb)) h
  case msrSpsrImm => exact ends_armCond (fun hb => .inl (State.msrSpsr_ends hb)) h
  case msrCpsrReg => exact ends_armCond (ends_checked fun hb => .inl (State.msrCpsr_ends hb)) h
  case msrSpsrReg => exact ends_armCond (ends_checked fun hb => .inl (State.msrSpsr_ends hb)) h
  case undefinedArm | ldcStc | cdp | mcrMrc => cases h
  all_goals cases hi


theorem exec_ends_thumb {i : Instr} {s t : State} (hi : i.isThumb = true) (h : exec i s = .next t) : Ends i s t := by
  cases i
  case tLslImm | tLsrImm | tAsrImm | tLslReg | tLsrReg | tAsrReg | tRorReg =>
    cases h
    exact .inl (State.finishLow_advances _ _ _ rfl rfl)
  case tAddReg | tSubReg | tAddImm3 | tSubImm3 | tAddImm8 | tSubImm8 | tAdc | tSbc | tNeg =>
    cases h
    exact .inl (State.finishLow_advances _ _ _ rfl rfl)
  case tMovImm8 | tAnd | tEor | tOrr | tBic | tMvn =>
    cases h
    exact .inl (State.finishLow_advances _ _ _ rfl rfl)
  case tCmpImm8 | tTst | tCmpReg | tCmn =>
    cases h
    exact .inl (State.finishTest_advances rfl rfl)
  case tMul rs rd =>
    refine ends_checked (fun hb => ?_) (answer_next h)
    cases hb
    exact .inl ⟨_, (((BodyStep.billCode s true).trans (.bill _ _)).trans (.setReg _ rd.up _)).trans
      (.setMulFlagsIf _ true _), rfl⟩
  case tAddHi | tMovHi =>
    refine ends_checked (fun hb => ?_) (answer_next h)
    cases hb
    exact (State.finishHi_ends _ _ s).imp_right fun ⟨hrd, hj⟩ => .inl ⟨by simp [Instr.writesPc, hrd], hj⟩
  case tCmpHi =>
    refine ends_checked (fun hb => ?_) (answer_next h)
    cases hb
    exact .inl (State.finishTest_advances rfl rfl)
  case tBx => exact .inr (.inl ⟨rfl, State.exchange_jumps (answer_next h)⟩)
  case tLdrPc | tLdrReg | tLdrImm | tLdrSp =>
    cases h
    exact .inl (State.loadLow_advances reading_word _ _ s)
  case tLdrbReg | tLdrbImm =>
    cases h
    exact .inl (State.loadLow_advances reading_byte _ _ s)
  case tLdrhReg | tLdrhImm =>
    cases h
    exact .inl (State.loadLow_advances reading_half _ _ s)
  case tLdsbReg =>
    cases h
    exact .inl (State.loadLow_advances reading_signedByte _ _ s)
  case tLdshReg =>
    cases h
    exact .inl (State.loadLow_advances reading_signedHalf _ _ s)
  case tStrReg | tStrbReg | tStrhReg | tStrImm | tStrbImm | tStrhImm | tStrSp =>
    exact .inl (State.storeLow_ends (answer_next h))
  case tAddPc | tAddSp | tAdjustSp | tBlHigh =>
    cases h
    exact .inl ⟨_, (BodyStep.billCode s true).trans (.setReg _ _ _), rfl⟩
  case tPush => exact ends_checked (fun hb => .inl (State.push_ends hb)) (answer_next h)
  case tStmia => exact ends_checked (fun hb => .inl (State.stmia_ends hb)) (answer_next h)
  case tPop r list =>
    refine ends_checked (fun hb => ?_) (answer_next h)
    cases hb
    exact (State.pop_ends r list s).elim (fun k => .inl k.2) fun k => .inr (.inl k)
  case tLdmia rb list =>
    refine ends_checked (fun hb => ?_) (answer_next h)
    cases hb
    exact .inl (s.ldmia_advances rb list)
  case tSwi n =>
    cases h
    exact .inr (.inr ⟨.inr ⟨n, rfl⟩, rfl⟩)
  case tBcond c off =>
    cases h
    split
    · exact .inr (.inl ⟨rfl, s.branch_jumps _⟩)
    · exact .inl s.skip_advances
  case tB =>
    cases h
    exact .inr (.inl ⟨rfl, s.branch_jumps _⟩)
  case tBlLow =>
    cases h
    exact .inr (.inl ⟨rfl, ((BodyStep.setReg s 14#4 _).trans (.billCode _ true)).jumps _ _⟩)
  case tUndefCond | tUndefBlx | tUndefB1 | tUndefB2 | tUndefB3 | tUndefB6 | tUndefB7 | tUndefB8 | tUndefB9 | tUndefBA |
      tUndefBB | tUndefBE | tUndefBF => cases h
  all_goals cases hi

/-- What an instruction that completes may do. -/
theorem exec_ends {i : Instr} {s t : State} (h : exec i s = .next t) : Ends i s t := by
  cases hi : i.isThumb
  · exact exec_ends_arm hi h
  · exact exec_ends_thumb hi h

theorem Advances.following {s t : State} (h : Advances s t) :
    t.cpu.pc = s.following ∧ t.cpu.cpsr.t = s.cpu.cpsr.t := by
  obtain ⟨u, hu, rfl⟩ := h
  exact ⟨congr (congrArg (fun a b => a + codeStep b) hu.pc) hu.thumb, hu.thumb⟩

theorem Advances.mode {s t : State} (h : Advances s t) : ModeStep s.cpu.cpsr t.cpu.cpsr := by
  obtain ⟨u, hu, rfl⟩ := h
  exact hu.mode

theorem Jumps.mode {s t : State} (h : Jumps s t) : ModeStep s.cpu.cpsr t.cpu.cpsr := by
  obtain ⟨u, p, v, k, -, hp, rfl⟩ := h
  exact hp

theorem State.softwareInterrupt_mode (s : State) : s.softwareInterrupt.cpu.cpsr.mode = modeSvc :=
  congrArg Psr.mode (State.setRegOf_cpu_cpsr _ _ _ _)

/-- Settles O13: the body of an instruction, its advance and its jump keep User mode. -/
theorem userModeLeftOnlyBySwi : Obligations.UserModeLeftOnlyBySwi := by
  intro i s t hmode h
  obtain h | ⟨-, h⟩ | ⟨hi, rfl⟩ := exec_ends h
  · exact .inl (h.mode.user hmode)
  · exact .inl (h.mode.user hmode)
  · exact .inr ⟨s.softwareInterrupt_mode, hi⟩

/-- Settles O14: an instruction that is no writer of the program counter advances. -/
theorem onlyListedInstructionsBranch : Obligations.OnlyListedInstructionsBranch := by
  intro i s t hi h
  obtain h | ⟨hw, -⟩ | ⟨⟨c, n, rfl⟩ | ⟨n, rfl⟩, -⟩ := exec_ends h
  · exact h.following
  · rw [hi] at hw
    cases hw
  · cases hi
  · cases hi

/-- Every ARM instruction outside the illegal space runs a body if its condition passes (R356). -/
theorem exec_armCond {i : Instr} {c : Cond} (hc : i.cond = some c) (hi : i.illegalRow = false) (s : State) :
    ∃ body, exec i s = armCond c s body := by
  cases i
  case undefinedArm | ldcStc | cdp | mcrMrc => cases hi
  all_goals cases hc
  all_goals exact ⟨_, rfl⟩

/-- Settles O15. -/
theorem failedConditionOnlyAdvances : Obligations.FailedConditionOnlyAdvances := by
  intro i c s hc hi hthumb hfails
  obtain ⟨body, he⟩ := exec_armCond hc hi s
  rw [he, armCond, hfails]
  simp [State.skip, State.advance, State.billCode, State.billAccess, State.prefetch, State.bill, State.setPc, hthumb,
    codeStep, codeWidth]

/-! ### The step -/

/-- What a whole step keeps. -/
structure SafeStep (s t : State) : Prop extends FrameStep s t where
  mode : legalMode s.cpu.cpsr.mode = true → legalMode t.cpu.cpsr.mode = true
  pc : pcAligned s.cpu.cpsr.t s.cpu.pc = true → pcAligned t.cpu.cpsr.t t.cpu.pc = true

theorem SafeStep.trans {s t u : State} (h : SafeStep s t) (k : SafeStep t u) : SafeStep s u :=
  ⟨h.toFrameStep.trans k.toFrameStep, k.mode ∘ h.mode, k.pc ∘ h.pc⟩

theorem BodyStep.safe {s t : State} (h : BodyStep s t) : SafeStep s t :=
  ⟨h.toFrameStep, h.mode.legal, fun hp => by rw [h.pc, h.thumb]; exact hp⟩

theorem pcAligned_alignPc (thumb : Bool) (v : Word) : pcAligned thumb (alignPc thumb v) = true := by
  cases thumb
  · have h : (v &&& 0xFFFFFFFC#32).setWidth 2 = 0#2 := by
      rw [BitVec.setWidth_and]
      exact BitVec.and_zero
    exact beq_iff_eq.mpr ((BitVec.toNat_setWidth ..).symm.trans (congrArg BitVec.toNat h))
  · have h : (v &&& 0xFFFFFFFE#32).setWidth 1 = 0#1 := by
      rw [BitVec.setWidth_and]
      exact BitVec.and_zero
    exact beq_iff_eq.mpr ((BitVec.toNat_setWidth ..).symm.trans (congrArg BitVec.toNat h))

theorem pcAligned_add_codeStep (thumb : Bool) (a : Word) (h : pcAligned thumb a = true) :
    pcAligned thumb (a + codeStep thumb) = true := by
  cases thumb <;> simp [pcAligned, codeStep] at h ⊢ <;> omega

theorem Advances.safe {s t : State} (h : Advances s t) : SafeStep s t := by
  have hmode := h.mode
  obtain ⟨hpc, ht⟩ := h.following
  obtain ⟨u, hu, rfl⟩ := h
  refine ⟨hu.toFrameStep.trans (.setPc u _), hmode.legal, fun hp => ?_⟩
  rw [hpc, ht]
  exact pcAligned_add_codeStep _ _ hp

theorem Jumps.safe {s t : State} (h : Jumps s t) : SafeStep s t := by
  have hmode := h.mode
  obtain ⟨u, p, v, k, hu, -, rfl⟩ := h
  exact ⟨((hu.toFrameStep.trans (.setCpsr u p)).trans (.setPc _ _)).trans (.billRefill _ k), hmode.legal,
    fun _ => pcAligned_alignPc _ _⟩

/-- ExceptionEntry into a legal mode at an aligned vector. -/
theorem SafeStep.enterException (s : State) {m : BitVec 5} {vector : Word} (ret : Word) (hm : legalMode m = true)
    (hv : pcAligned false vector = true) : SafeStep s (s.enterException m vector ret) := by
  have hb : BodyStep (s.setCpsr { s.cpu.cpsr with mode := m, t := false, i := true }) _ :=
    (BodyStep.setSpsrOf _ m s.cpu.cpsr).trans (.setReg _ 14#4 ret)
  have hcpsr := hb.mode
  refine ⟨((FrameStep.setCpsr s _).trans hb.toFrameStep).trans (.setPc _ vector), fun _ => hcpsr.legal hm, fun _ => ?_⟩
  show pcAligned _ vector = true
  rw [show (s.enterException m vector ret).cpu.cpsr.t = false from hb.thumb]
  exact hv

theorem SafeStep.billRefill (s : State) (k : Word) : SafeStep s (s.billRefill k) :=
  ((BodyStep.bill s _).trans (.bill _ _)).safe

theorem SafeStep.softwareInterrupt (s : State) : SafeStep s s.softwareInterrupt :=
  ((BodyStep.billCode s true).safe.trans (.enterException _ _ rfl rfl)).trans (.billRefill _ _)

theorem SafeStep.enterIrq (s : State) : SafeStep s s.enterIrq :=
  ((BodyStep.bill s _).safe.trans (.enterException _ _ rfl rfl)).trans (.billRefill _ _)

theorem SafeStep.exec {i : Instr} {s t : State} (h : exec i s = .next t) : SafeStep s t := by
  obtain h | ⟨-, h⟩ | ⟨-, rfl⟩ := exec_ends h
  · exact h.safe
  · exact h.safe
  · exact .softwareInterrupt s

theorem BodyStep.cacheFill (s : State) (a : Word) (thumb : Bool) (word : Word) :
    BodyStep s (s.cacheFill a thumb word) := by
  unfold State.cacheFill
  dsimp only
  split
  · exact .of_event (.of_dma (.of_eq rfl rfl rfl rfl rfl rfl (Nat.le_refl _) rfl rfl rfl rfl rfl) rfl)
  · exact .refl s

theorem State.execute_next {i : Instr} {s t : State} (h : s.execute i = .next t) : exec i s = .next t := by
  unfold State.execute at h
  split at h
  · unfold State.raise at h
    split at h <;> cases h
  · exact h

theorem SafeStep.cpuStep {s t : State} (h : s.cpuStep = .next t) : SafeStep s t := by
  unfold State.cpuStep at h
  split at h
  · cases h
  · exact ((BodyStep.read s.fetch_readStep).trans (.cacheFill _ _ _ _)).safe.trans (.exec (State.execute_next h))

theorem SafeStep.takeIrq (s : State) : SafeStep s s.takeIrq := by
  unfold State.takeIrq
  split
  · exact .enterIrq s
  · exact (BodyStep.refl s).safe

theorem SafeStep.eventPass {s t : State} (h : s.eventPass = .ok t) : SafeStep s t :=
  (BodyStep.of_event (.eventPass h)).safe

/-- A step that completes ends in an event pass. -/
theorem step_next {s t : State} (h : step s = .next t) :
    s.fault = none ∧ ∃ u, SafeStep s u ∧ u.eventPass = .ok t := by
  unfold step at h
  split at h
  · unfold State.raise at h
    split at h <;> cases h
  next hf =>
    refine ⟨hf, ?_⟩
    split at h
    · cases h
    · split at h
      · exact ⟨_, (BodyStep.of_event (.skipToEvent s)).safe, answer_next h⟩
      · cases hc : s.takeIrq.cpuStep with
        | next u =>
          rw [hc] at h
          exact ⟨u, (SafeStep.takeIrq s).trans (.cpuStep hc), answer_next h⟩
        | fault f => rw [hc] at h; cases h
        | refused r => rw [hc] at h; cases h

theorem SafeStep.step {s t : State} (h : step s = .next t) : s.fault = none ∧ SafeStep s t := by
  obtain ⟨hf, u, hu, ht⟩ := step_next h
  exact ⟨hf, hu.trans (.eventPass ht)⟩

/-- Settles O9: each part of a step keeps the invariant. -/
theorem stepKeepsInv : Obligations.StepKeepsInv := by
  intro s t hs h
  obtain ⟨-, hst⟩ := SafeStep.step h
  obtain ⟨hheld, hrunning⟩ := hst.idle ⟨hs.held, hs.running⟩
  exact ⟨hst.mode hs.mode, hst.pc hs.pc, hheld, hrunning, hst.ok hs.devices⟩

/-- Settles O11: each part of a step keeps the read-only state. -/
theorem stepKeepsReadOnlyState : Obligations.StepKeepsReadOnlyState := by
  intro s t h
  obtain ⟨hf, hst⟩ := SafeStep.step h
  exact ⟨hst.rom, hst.params, hst.biosLen, hst.romLen, hst.backend, hst.cycles, hst.fault.trans hf, hst.written⟩

end Sys2Proof.Machine
end

section
/-! The event pass of a step (60_exceptions.md R850-R852), the halted step, IRQ entry at the boundary, and what a step of
a running machine executes. -/

namespace Sys2Proof.Machine

/-! ### The next event -/

/-- The earliest event of a list is one of its events, and none of its events is earlier. -/
theorem State.earliest_spec (s : State) (l : List EventSource) :
    (∀ x, s.earliest l = some x → s.nextOf x.1 = some x.2) ∧
    (∀ src ∈ l, ∀ n, s.nextOf src = some n → ∃ x, s.earliest l = some x ∧ x.2 ≤ n) := by
  induction l with
  | nil => exact ⟨nofun, nofun⟩
  | cons e es ih =>
    obtain ⟨ih1, ih2⟩ := ih
    unfold State.earliest
    cases he : s.nextOf e with
    | none =>
      refine ⟨ih1, fun src hsrc n hn => ?_⟩
      obtain rfl | hsrc := List.mem_cons.mp hsrc
      · rw [he] at hn
        cases hn
      · exact ih2 src hsrc n hn
    | some k =>
      cases hes : s.earliest es with
      | none =>
        refine ⟨fun x hx => ?_, fun src hsrc n hn => ⟨_, rfl, ?_⟩⟩
        · cases hx
          exact he
        · obtain rfl | hsrc := List.mem_cons.mp hsrc
          · rw [he] at hn
            cases hn
            exact Nat.le_refl _
          · obtain ⟨y, hy, -⟩ := ih2 src hsrc n hn
            rw [hes] at hy
            cases hy
      | some y =>
        refine ⟨fun x hx => ?_, fun src hsrc n hn => ?_⟩
        · simp only [Option.map_some, earlier] at hx
          split at hx <;> cases hx
          · exact ih1 y hes
          · exact he
        · simp only [Option.map_some, earlier]
          refine ⟨_, (apply_ite some _ _ _).symm, ?_⟩
          obtain rfl | hsrc := List.mem_cons.mp hsrc
          · rw [he] at hn
            cases hn
            split
            · exact Nat.le_of_lt ‹_›
            · exact Nat.le_refl _
          · obtain ⟨z, hz, hzn⟩ := ih2 src hsrc n hn
            rw [hes] at hz
            cases hz
            split
            · exact hzn
            · exact Nat.le_trans (Nat.le_of_not_lt ‹_›) hzn

theorem State.mem_sources (s : State) (src : EventSource) : src ∈ s.sources := by
  refine List.mem_append_right _ ?_
  cases src <;> decide

/-- The next event is an event, and the least (R852). -/
theorem State.nextEvent_some {s : State} {src : EventSource} {n : Nat} (h : s.nextEvent = some (src, n)) :
    s.nextOf src = some n ∧ ∀ src' n', s.nextOf src' = some n' → n ≤ n' := by
  obtain ⟨h1, h2⟩ := s.earliest_spec s.sources
  refine ⟨h1 _ h, fun src' n' hn => ?_⟩
  obtain ⟨x, hx, hle⟩ := h2 src' (s.mem_sources src') n' hn
  rw [show s.earliest s.sources = s.nextEvent from rfl, h] at hx
  cases hx
  exact hle

/-- The PPU always has a next event. -/
theorem State.nextEvent_isSome (s : State) : ∃ src n, s.nextEvent = some (src, n) := by
  obtain ⟨x, hx, -⟩ := (s.earliest_spec s.sources).2 .ppu (s.mem_sources .ppu) _ rfl
  exact ⟨x.1, x.2, hx⟩

/-! ### The end of the event pass -/

/-- If the next event is not due, no event is. -/
theorem State.quiet_of_nextEvent {s : State} {src : EventSource} {n : Nat} (h : s.nextEvent = some (src, n))
    (hn : ¬n ≤ s.cycles) : s.quiet := fun src' n' h' =>
  Nat.lt_of_lt_of_le (Nat.lt_of_not_le hn) ((State.nextEvent_some h).2 src' n' h')

theorem State.quiet_of_runEvents {win : Window} (k : Nat) {s t : State} (h : s.runEvents win k = .ok t) : t.quiet := by
  induction k generalizing s with
  | zero =>
    obtain ⟨src, n, hs⟩ := s.nextEvent_isSome
    simp only [State.runEvents, hs] at h
    split at h <;> cases h
    exact State.quiet_of_nextEvent hs ‹_›
  | succ k ih =>
    obtain ⟨src, n, hs⟩ := s.nextEvent_isSome
    simp only [State.runEvents, hs] at h
    split at h
    · obtain ⟨u, -, ht⟩ := bind_ok h
      exact ih ht
    · cases h
      exact State.quiet_of_nextEvent hs ‹_›

theorem State.quiet_congr {s t : State} (h : s.quiet) (hc : t.cycles = s.cycles) (hp : t.ppu = s.ppu)
    (ha : t.apu = s.apu) (ht : t.timers = s.timers) : t.quiet := by
  intro src n hn
  rw [hc]
  refine h src n ?_
  cases src
  case serial => cases hn
  all_goals simpa [State.nextOf, State.timer, hp, ha, ht] using hn

theorem State.quiet_eventPass {s t : State} (h : s.eventPass = .ok t) : t.quiet := by
  obtain ⟨u, hu, ht⟩ := bind_ok h
  cases ht
  have hk : u.keypadCheck.quiet := by
    unfold State.keypadCheck State.raiseIrqIf
    split <;> exact State.quiet_congr (State.quiet_of_runEvents _ hu) rfl rfl rfl rfl
  unfold State.wake
  split
  · exact State.quiet_congr hk rfl rfl rfl rfl
  · exact hk

/-- Settles O12: the event pass of the step goes on until no event is due. -/
theorem noEventDueAfterStep : Obligations.NoEventDueAfterStep := by
  intro s t h
  obtain ⟨-, u, -, ht⟩ := step_next h
  exact State.quiet_eventPass ht

/-! ### What a step is -/

theorem State.raise_of_live {s : State} (h : s.live = true) : s.fault = none ∧ s.stopped = false := by
  simpa [State.live] using h

theorem step_of_fault {s : State} {r : FaultRecord} (h : s.fault = some r) : step s = .fault (s.raise r) := by
  simp [step, h]

theorem step_of_stopped {s : State} (hf : s.fault = none) (h : s.stopped = true) : step s = .fault (.stopped s) := by
  simp [step, hf, h]

theorem step_of_halted {s : State} (h : s.live = true) (hh : s.halted = true) :
    step s = answer s.skipToEvent.eventPass := by
  obtain ⟨hf, hs⟩ := State.raise_of_live h
  simp [step, hf, hs, hh, State.haltStep]

theorem step_of_running {s : State} (h : s.live = true) (hh : s.halted = false) :
    step s = afterCpuStep s.takeIrq.cpuStep := by
  obtain ⟨hf, hs⟩ := State.raise_of_live h
  simp [step, hf, hs, hh]

/-- Whether an instruction executes and passes the checks before its reads, by its parts. -/
theorem State.reading_iff (u : State) (i : Instr) :
    ((∀ c, i.cond = some c → condHolds c u.cpu.cpsr = true) ∧ u.forbids i = false) ↔
      (u.executes i && !u.forbids i) = true := by
  cases hc : i.cond <;> simp [State.executes, hc]

/-- An instruction none of whose reads is of an unwritten register (R369). -/
theorem State.execute_of_written {u : State} {i : Instr}
    (h : (u.executes i && !u.forbids i) = true → ∀ r ∈ u.reads i, u.isWritten r = true) :
    u.execute i = exec i u := by
  have hnone : u.unwrittenRead i = none := by
    unfold State.unwrittenRead
    split
    next hr => simpa using h hr
    next => rfl
  simp [State.execute, hnone]

/-- An instruction that reads an unwritten register (R369). -/
theorem State.execute_of_unwritten {u : State} {i : Instr} {r : StoredReg} (hr : r ∈ u.reads i)
    (h : (u.executes i && !u.forbids i) = true) (hw : u.isWritten r = false) :
    ∃ q ∈ u.reads i, u.isWritten q = false ∧
      u.execute i = .fault (.unwrittenRegister u.cpu.pc q { u with fault := some (.unwrittenRegister u.cpu.pc q) }) := by
  cases hq : (u.reads i).find? fun r => !u.isWritten r with
  | none => exact absurd hw (by simpa using List.find?_eq_none.mp hq r hr)
  | some q =>
    refine ⟨q, List.mem_of_find?_eq_some hq, by simpa using List.find?_some hq, ?_⟩
    simp [State.execute, State.unwrittenRead, h, hq, State.raise]

theorem State.fetched_cpu (s : State) : s.fetched.cpu = s.cpu := by
  have hcache : ∀ (t : State) (a : Word) (b : Bool) (w : Word), (t.cacheFill a b w).cpu = t.cpu := by
    intro t a b w
    unfold State.cacheFill
    dsimp only
    split <;> rfl
  exact (hcache _ _ _ _).trans s.fetch_readStep.cpu

/-- Settles O5. -/
theorem stepRunsDecodedInstruction : Obligations.StepRunsDecodedInstruction := by
  refine ⟨fun s r => step_of_fault, fun s => step_of_stopped, fun s hlive hrun hirq => ?_⟩
  have hstep : step s = afterCpuStep s.cpuStep := by
    rw [step_of_running hlive hrun, State.takeIrq, hirq]
    rfl
  refine ⟨fun i hi => ?_, fun he => ?_, fun he => ?_⟩
  · have hcpu : s.cpuStep = s.fetched.execute i := by simp [State.cpuStep, State.currentInstr, hi]
    rw [hstep, hcpu]
    refine ⟨fun h => ?_, fun r hr hreading hw => ?_⟩
    · rw [State.execute_of_written fun hr => h ((State.reading_iff _ i).mpr hr)]
    · obtain ⟨q, hq, hqw, he⟩ := State.execute_of_unwritten hr ((State.reading_iff _ i).mp hreading) hw
      exact ⟨q, hq, hqw, by rw [he, s.fetched_cpu]; rfl⟩
  · rw [hstep]
    simp [State.cpuStep, State.currentInstr, he, decodeFault, State.raise, afterCpuStep]
  · rw [hstep]
    simp [State.cpuStep, State.currentInstr, he, decodeFault, State.raise, afterCpuStep]

/-- Settles O7: the entry, and its bill over three accesses. -/
theorem stepTakesIrq : Obligations.StepTakesIrq := by
  intro s hlive hrun hline hi
  have htake : s.takeIrq = s.enterIrq := by simp [State.takeIrq, hline, hi]
  refine ⟨by rw [step_of_running hlive hrun, htake], ?_, ?_⟩
  · exact .billed (by decide) s _ ..
  · rw [State.enterIrq, State.billRefill_bios_cycles _ (State.enterException_pc ..) (by decide) (by decide),
      State.enterException_cycles]
    rfl

/-! ### A halted machine -/

/-- A halted machine stays halted. -/
def KeepsHalt (s t : State) : Prop := s.halted = true → t.halted = true

theorem KeepsHalt.of_eq {s t : State} (h : t.halted = s.halted) : KeepsHalt s t := fun hs => h.trans hs

theorem KeepsHalt.refl (s : State) : KeepsHalt s s := id

theorem KeepsHalt.trans {s t u : State} (h : KeepsHalt s t) (k : KeepsHalt t u) : KeepsHalt s u := k ∘ h

/-- The same from a state that is halted alike. -/
theorem KeepsHalt.after {s t u : State} (k : KeepsHalt t u) (h : t.halted = s.halted) : KeepsHalt s u :=
  fun hs => k (h.trans hs)

theorem KeepsHalt.read {s t : State} (h : ReadStep s t) : KeepsHalt s t := .of_eq (by rw [h.eq])

theorem KeepsHalt.raiseIrqIf (s : State) (b : Bool) (k : Nat) : KeepsHalt s (s.raiseIrqIf b k) := by
  unfold State.raiseIrqIf
  split <;> exact id

theorem KeepsHalt.holdDma (s : State) (n : Fin 4) : KeepsHalt s (s.holdDma n) := by
  unfold State.holdDma
  split <;> exact id

/-- A write of HALTCNT halts or stops (R841). -/
theorem KeepsHalt.writeHaltcnt (s : State) (v : Byte) : KeepsHalt s (s.writeHaltcnt v) := by
  unfold State.writeHaltcnt
  split
  · split <;> exact id
  · exact fun _ => rfl

theorem KeepsHalt.writeReg (s : State) (r : IoReg) (v : Half) : KeepsHalt s (s.writeReg r v) := by
  cases r
  case dmaControl n =>
    simp only [State.writeReg, State.writeDmaControl]
    split
    · split
      · exact (KeepsHalt.holdDma _ n).after rfl
      · exact id
    · exact id
  case postHalt => exact (KeepsHalt.writeHaltcnt _ _).after rfl
  all_goals exact id

theorem KeepsHalt.writeIoHalf (s : State) (o : Nat) (v : Half) : KeepsHalt s (s.writeIoHalf o v) := by
  unfold State.writeIoHalf
  split
  · exact id
  · exact .writeReg s _ v

theorem KeepsHalt.writeIo (s : State) (o : Nat) (v : Word) (w : Width) : KeepsHalt s (s.writeIo o v w) := by
  cases w
  · simp only [State.writeIo]
    split
    · exact id
    · unfold State.writeIoByteMerge
      split
      · exact id
      · exact id
      · split
        · exact id
        · exact .writeHaltcnt s _
      · exact .writeReg s _ _
  · exact .writeIoHalf s _ _
  · exact (KeepsHalt.writeIoHalf s _ _).trans (.writeIoHalf _ _ _)

theorem State.flashErase_halted (s : State) (o : Nat) (b : Byte) : (s.flashErase o b).halted = s.halted := by
  have h : ∀ (m : Memory) (f : Flash), ((s.setMem m).setFlash f).halted = s.halted := fun _ _ => rfl
  unfold State.flashErase
  dsimp only
  split
  · exact h _ _
  · split
    · exact h _ _
    · rfl

theorem State.flashWrite_halted (s : State) (o : Nat) (b : Byte) : (s.flashWrite o b).halted = s.halted := by
  have h : ∀ (m : Memory) (f : Flash), ((s.setMem m).setFlash f).halted = s.halted := fun _ _ => rfl
  unfold State.flashWrite
  dsimp only
  split
  · exact h _ _
  · split
    · rfl
    · split
      · split <;> rfl
      · split <;> rfl
      · split
        · exact s.flashErase_halted o b
        · split <;> rfl

theorem State.eepromWrite_halted (s : State) (b : Bool) : (s.eepromWrite b).halted = s.halted := by
  have h : ∀ (m : Memory) (f : Eeprom), ((s.setMem m).setEeprom f).halted = s.halted := fun _ _ => rfl
  unfold State.eepromWrite
  dsimp only
  generalize (if s.save.eeprom.bits = .undecided then EepromBits.fourteen else s.save.eeprom.bits) = bits
  split
  · rfl
  · split
    · rfl
    · split
      · exact h _ _
      · rfl

theorem State.writeRom_halted (s : State) (a v : Word) (w : Width) : (s.writeRom a v w).halted = s.halted := by
  unfold State.writeRom
  split
  · exact s.eepromWrite_halted _
  · split <;> rfl

theorem KeepsHalt.writeRaw {s t : State} {a v : Word} {w : Width} (h : s.writeRaw a w v = .ok t) : KeepsHalt s t := by
  unfold State.writeRaw at h
  split at h
  · cases h; exact .refl _
  · cases h; exact .writeIo s _ v w
  iterate 3 (cases h; exact .of_eq (s.writeRom_halted a v w))
  · cases w
    · simp only [State.writeSave] at h
      split at h <;> cases h
      · exact id
      · exact .of_eq (s.flashWrite_halted _ _)
    · cases h
    · cases h
  · cases h; exact .refl _
  iterate 2 (cases h; exact id)
  · cases h; cases w <;> exact id
  · cases h
    cases w
    · simp only [State.writeVram]
      split <;> exact id
    · exact id
    · exact id
  · cases h; cases w <;> exact id

theorem KeepsHalt.busWrite {s t : State} {win : Window} {a v : Word} {w : Width} {seq : Bool}
    (h : s.busWrite win a w v seq = .ok t) : KeepsHalt s t := by
  unfold State.busWrite at h
  split at h
  · cases h
  · exact (KeepsHalt.writeRaw h).after rfl

theorem KeepsHalt.dmaElements {win : Window} {n : Fin 4} {fifo : Bool} {w : Width} (k : Nat) {seq : Bool} {s t : State}
    (h : s.dmaElements win n fifo w k seq = .ok t) : KeepsHalt s t := by
  induction k generalizing seq s with
  | zero => cases h; exact .refl _
  | succ k ih =>
    obtain ⟨u, hu, ht⟩ := bind_ok h
    obtain ⟨v, hv, hu⟩ := bind_ok hu
    cases hu
    have hread := (KeepsHalt.read (State.readRaw_readStep
      (s.billAccess (s.dmaChan n).isrc w seq) .dma (w.align (s.dmaChan n).isrc) w)).after (s := s) rfl
    exact (hread.trans (.busWrite hv)).trans ((ih ht).after rfl)

theorem State.eepromSizeHint_halted (s : State) (n : Fin 4) (k : Nat) (d : Word) :
    (s.eepromSizeHint n k d).halted = s.halted := by
  unfold State.eepromSizeHint
  dsimp only
  repeat' split
  all_goals rfl

theorem KeepsHalt.transfer {s t : State} {win : Window} {n : Fin 4} (h : s.transfer win n = .ok t) : KeepsHalt s t := by
  unfold State.transfer at h
  dsimp only at h
  split at h
  · cases h; exact .refl _
  · generalize (if (s.dmaChan n).feedsFifo n = true then 4 else (s.dmaChan n).icount) = k at h
    split at h
    · cases h
      split <;> exact id
    · obtain ⟨u, hu, ht⟩ := bind_ok h
      cases ht
      exact ((KeepsHalt.of_eq (State.eepromSizeHint_halted _ _ _ _)).trans (.dmaElements _ hu)).trans
        ((KeepsHalt.raiseIrqIf _ _ _).after rfl)

theorem KeepsHalt.drainDma {win : Window} (k : Nat) {s t : State} (h : s.drainDma win k = .ok t) : KeepsHalt s t := by
  induction k generalizing s with
  | zero =>
    simp only [State.drainDma] at h
    split at h <;> cases h
    exact .refl _
  | succ k ih =>
    simp only [State.drainDma] at h
    split at h
    · cases h; exact .refl _
    · obtain ⟨u, hu, ht⟩ := bind_ok h
      exact ((KeepsHalt.transfer hu).after rfl).trans ((ih ht).after rfl)

theorem KeepsHalt.triggerDma {win : Window} {n : Fin 4} {s t : State} (h : s.triggerDma win n = .ok t) :
    KeepsHalt s t := (KeepsHalt.holdDma s n).trans (.drainDma _ h)

theorem KeepsHalt.triggerTimed {win : Window} {timing : BitVec 2} (ns : List (Fin 4)) {s t : State}
    (h : s.triggerTimed win timing ns = .ok t) : KeepsHalt s t := by
  induction ns generalizing s with
  | nil => cases h; exact .refl _
  | cons n ns ih =>
    obtain ⟨u, hu, ht⟩ := bind_ok h
    refine KeepsHalt.trans ?_ (ih ht)
    unfold State.triggerArmed at hu
    split at hu
    · exact .triggerDma hu
    · cases hu; exact .refl _

theorem KeepsHalt.refillFrom {win : Window} {x : Fifo} {n : Fin 4} {s t : State} (h : s.refillFrom win x n = .ok t) :
    KeepsHalt s t := by
  unfold State.refillFrom at h
  dsimp only at h
  split at h
  · exact .triggerDma h
  · cases h; exact .refl _

theorem KeepsHalt.fifoTick {win : Window} {n : Fin 4} {x : Fifo} {s t : State} (h : s.fifoTick win n x = .ok t) :
    KeepsHalt s t := by
  unfold State.fifoTick at h
  split at h
  · dsimp only at h
    split at h
    · obtain ⟨u, hu, ht⟩ := bind_ok h
      exact ((KeepsHalt.refillFrom hu).trans (.refillFrom ht)).after rfl
    · cases h; exact id
  · cases h; exact .refl _

theorem KeepsHalt.overflowOne {win : Window} {n : Fin 4} {time : Nat} {s t : State}
    (h : s.overflowOne win n time = .ok t) : KeepsHalt s t := by
  unfold State.overflowOne at h
  dsimp only at h
  split at h
  · obtain ⟨u, hu, ht⟩ := bind_ok h
    exact ((KeepsHalt.raiseIrqIf _ _ _).trans ((KeepsHalt.fifoTick hu).trans (.fifoTick ht))).after rfl
  · cases h
    exact (KeepsHalt.raiseIrqIf _ _ _).after rfl

theorem State.cascadeInto_halted (s : State) (n : Fin 4) : (s.cascadeInto n).2.halted = s.halted := by
  unfold State.cascadeInto
  dsimp only
  split <;> rfl

theorem KeepsHalt.overflowChain {win : Window} {time : Nat} (ns : List (Fin 4)) {s t : State}
    (h : s.overflowChain win time ns = .ok t) : KeepsHalt s t := by
  induction ns generalizing s with
  | nil => cases h; exact .refl _
  | cons n ns ih =>
    obtain ⟨u, hu, ht⟩ := bind_ok h
    refine (KeepsHalt.overflowOne hu).trans ?_
    cases ns with
    | nil => cases ht; exact .refl _
    | cons m ns =>
      dsimp only at ht
      split at ht
      · exact (KeepsHalt.of_eq (u.cascadeInto_halted m)).trans (ih ht)
      · cases ht
        exact .of_eq (u.cascadeInto_halted m)

theorem KeepsHalt.ppuEvent {win : Window} {time : Nat} {s t : State} (h : s.ppuEvent win time = .ok t) :
    KeepsHalt s t := by
  unfold State.ppuEvent at h
  split at h
  · unfold State.hblankStart at h
    dsimp only at h
    have h1 : KeepsHalt s ((s.mapPpu (·.enterHblank s.mem time)).raiseIrqIf (s.ppu.dispstat.getLsbD 4) 1) :=
      (KeepsHalt.raiseIrqIf _ _ _).after rfl
    split at h
    · exact h1.trans (.triggerTimed _ h)
    · cases h; exact h1
  · obtain ⟨u, hu, ht⟩ := bind_ok h
    cases ht
    refine KeepsHalt.trans ?_ (.raiseIrqIf _ _ _)
    unfold State.vblankStart at hu
    split at hu
    · exact ((KeepsHalt.raiseIrqIf _ _ _).trans (.triggerTimed _ hu)).after rfl
    · cases hu; exact id

theorem KeepsHalt.event {win : Window} {src : EventSource} {time : Nat} {s t : State}
    (h : s.event win src time = .ok t) : KeepsHalt s t := by
  cases src
  case ppu => exact .ppuEvent h
  case timer0 | timer1 | timer2 | timer3 => exact .overflowChain _ h
  case apuFrame | apuSampler | serial => cases h; exact id

theorem KeepsHalt.runEvents {win : Window} (k : Nat) {s t : State} (h : s.runEvents win k = .ok t) : KeepsHalt s t := by
  induction k generalizing s with
  | zero =>
    simp only [State.runEvents] at h
    split at h
    · split at h <;> cases h
      exact .refl _
    · cases h; exact .refl _
  | succ k ih =>
    simp only [State.runEvents] at h
    split at h
    · split at h
      · obtain ⟨u, hu, ht⟩ := bind_ok h
        exact (KeepsHalt.event hu).trans (ih ht)
      · cases h; exact .refl _
    · cases h; exact .refl _

/-- The wake check ends the halt exactly if an enabled interrupt is pending (R840). -/
theorem State.wake_halted {s : State} (h : s.halted = true) :
    s.wake.halted = true ↔ s.wake.irq.ie &&& s.wake.irq.ifl = 0#14 := by
  unfold State.wake
  by_cases hp : s.irq.ie &&& s.irq.ifl = 0#14
  · simp [h, hp]
  · simp [h, hp]

theorem State.eventPass_halted {s t : State} (hs : s.halted = true) (h : s.eventPass = .ok t) :
    t.halted = true ↔ t.irq.ie &&& t.irq.ifl = 0#14 := by
  obtain ⟨u, hu, ht⟩ := bind_ok h
  cases ht
  exact State.wake_halted (KeepsHalt.raiseIrqIf u _ _ (KeepsHalt.runEvents _ hu hs))

/-- Settles O8: the skip to the next event, then the event pass with its wake check. -/
theorem haltedStepWaits : Obligations.HaltedStepWaits := by
  intro s t hlive hhalt h
  rw [step_of_halted hlive hhalt] at h
  have hpass := answer_next h
  obtain ⟨src, n, hn⟩ := s.nextEvent_isSome
  have hskip : s.skipToEvent = { s with cycles := max s.cycles n } := by simp [State.skipToEvent, hn]
  obtain ⟨hof, hleast⟩ := State.nextEvent_some hn
  have hev := (EventStep.eventPass hpass).device
  rw [hskip] at hev hpass
  exact ⟨hev.cpu, State.eventPass_halted (s := { s with cycles := max s.cycles n }) hhalt hpass, src, n, hof, hleast, hev.cycles⟩

/-! ### The fetch -/

/-- The value of a code access over the bytes from a storage address. -/
def State.codeAt (s : State) (k : Nat) : Word :=
  if s.cpu.cpsr.t then (s.mem.byte (k + 1) ++ s.mem.byte k).setWidth 32
  else s.mem.byte (k + 3) ++ s.mem.byte (k + 2) ++ s.mem.byte (k + 1) ++ s.mem.byte k

theorem State.read_codeWidth (s : State) (k : Nat) : s.mem.read k (codeWidth s.cpu.cpsr.t) = s.codeAt k := by
  unfold codeWidth State.codeAt
  split <;> rfl

theorem State.sentinel_codeWidth (thumb : Bool) :
    sentinel (codeWidth thumb) = if thumb then Config.sentinel16.setWidth 32 else Config.sentinel32 := by
  cases thumb <;> rfl

/-- A fetch reads the BIOS image, unprotected, or past its end the sentinel (R172, R185). -/
theorem State.readBios_fetch (s : State) (a : Word) (w : Width) :
    (s.readBios .fetch a w).1 =
      if slotOffset a + w.bytes ≤ s.biosLen then s.mem.read (slotOffset a) w else sentinel w := by
  unfold State.readBios
  dsimp only
  by_cases h : slotOffset a + w.bytes ≤ s.biosLen
  · have hw : 0 < w.bytes := by cases w <;> decide
    rw [if_neg (by omega), if_neg (by simp [State.biosProtected]), if_neg (by omega), if_pos h]
    rfl
  · rw [if_neg h]
    split
    · rfl
    · rw [if_neg (by simp [State.biosProtected]), if_pos (by omega)]

/-- The ROM image, or past its end the sentinel (R172, R191). -/
theorem State.readRomImage_eq (s : State) (a : Word) (w : Width) :
    s.readRomImage a w =
      if romOffset a + w.bytes ≤ s.romLen then s.mem.read (0x08000000 + romOffset a) w else sentinel w := by
  unfold State.readRomImage
  split
  · rw [if_neg (by omega)]
  · rw [if_pos (by omega)]
    rfl

theorem State.readRom_image {s : State} {a : Word} (h1 : s.isEepromPort a = false) (h2 : s.gpio.readable = false)
    (w : Width) : s.readRom a w = (s.readRomImage a w, s) := by
  simp [State.readRom, h1, h2]

theorem State.fetched_eq (s : State) :
    s.fetched = { s with
      draws := s.fetched.draws, icache := s.fetched.icache, save := { s.save with eeprom := s.fetched.save.eeprom } } := by
  have hr := s.fetch_readStep.eq
  unfold State.fetched State.cacheFill
  dsimp only
  split <;> rw [hr]

/-- Settles O6: the raw read at the program counter, by region. -/
theorem fetchReadsCode : Obligations.FetchReadsCode := by
  intro s _ width code past free rom
  refine ⟨fun h => ?_, fun h => ?_, fun h hport hgpio => ?_, fun h => ?_, s.fetched_eq⟩
  · rw [State.ramAddress_eq] at h
    rw [State.fetch, State.readRaw_ram _ _ _ _ h]
    exact s.read_codeWidth _
  · rw [State.fetch, State.readRaw, h]
    exact (s.readBios_fetch _ _).trans (by rw [State.read_codeWidth, State.sentinel_codeWidth]; rfl)
  · have hrom : s.fetch = s.readRom s.cpu.pc (codeWidth s.cpu.cpsr.t) := by
      simp only [List.mem_cons, List.not_mem_nil, or_false] at h
      obtain h | h | h := h <;> rw [State.fetch, State.readRaw, h]
    rw [hrom, State.readRom_image hport hgpio, State.readRomImage_eq, State.read_codeWidth, State.sentinel_codeWidth]
    rfl
  · rw [State.fetch, State.readRaw, h]
    simp only [State.drawWidth, free, codeWidth]
    split <;> rfl

/-- Settles O10: every part of the reset state by evaluation. -/
theorem resetHasInv : Obligations.ResetHasInv := by
  refine ⟨rfl, rfl, rfl, rfl, rfl, by decide, rfl, ⟨rfl, rfl⟩, Nat.zero_le _, Nat.zero_le _, ?_⟩
  decide

end Sys2Proof.Machine
end

section
/-! The register view (10_state.md R57) and the shifter by exact arithmetic (41_arm_dataproc_psr.md R400-R403). -/

namespace Sys2Proof.Machine

/-! ### Banks -/

/-- The table of R57 over the seven modes. -/
theorem phys_eq_iff_of_modes :
    ∀ m ∈ [modeUsr, modeFiq, modeIrq, modeSvc, modeAbt, modeUnd, modeSys],
    ∀ n ∈ [modeUsr, modeFiq, modeIrq, modeSvc, modeAbt, modeUnd, modeSys], ∀ i j : RegNo, i ≠ 15#4 → j ≠ 15#4 →
      (phys m i = phys n j ↔ i = j ∧ (i.toNat < 8 ∨ (i.toNat ≤ 12 ∧ (m = modeFiq ↔ n = modeFiq)) ∨
        m = n ∨ (m ∈ [modeUsr, modeSys] ∧ n ∈ [modeUsr, modeSys]))) := by
  decide +kernel

theorem mem_modes {m : BitVec 5} (h : legalMode m = true) :
    m ∈ [modeUsr, modeFiq, modeIrq, modeSvc, modeAbt, modeUnd, modeSys] := by
  revert m
  decide

/-- Settles O16. -/
theorem registerBanks : Obligations.RegisterBanks := by
  refine ⟨fun m n i j hm hn hi hj => phys_eq_iff_of_modes m (mem_modes hm) n (mem_modes hn) i j hi hj,
    fun s m n i j v hi => s.regOf_setRegOf m n i j v hi, fun s m i v r hi => ?_, fun s ahead i => rfl⟩
  cases r with
  | general k => simp [State.isWritten, State.written_setRegOf s m i v k hi]
  | saved k => simp [State.isWritten, State.setRegOf, hi]

/-! ### Bits by arithmetic -/

/-- A bit of a word by division. -/
theorem getLsbD_eq_div (v : Word) (i : Nat) : v.getLsbD i = decide (v.toNat / 2 ^ i % 2 = 1) := by
  rw [← BitVec.testBit_toNat, Nat.testBit_eq_decide_div_mod_eq]

theorem msb_eq_div (v : Word) : v.msb = decide (v.toNat / 2 ^ 31 % 2 = 1) := by
  rw [BitVec.msb_eq_getLsbD_last, getLsbD_eq_div]

/-- The least bit is the parity of the signed value. -/
theorem getLsbD_zero_eq_toInt (v : Word) : v.getLsbD 0 = decide (v.toInt % 2 = 1) := by
  rw [getLsbD_eq_div, BitVec.toInt_eq_toNat_cond]
  congr 1
  split <;> simp only [eq_iff_iff] <;> omega

/-- An arithmetic shift is a division that rounds down. -/
theorem toInt_asr (v : Word) (n : Nat) : (asr v n).toInt = v.toInt / (2 ^ n : Nat) := by
  rw [asr, BitVec.toInt_sshiftRight, Int.shiftRight_eq_div_pow]

/-- A bit of the signed value by division; above the word it is the sign. -/
theorem signBit_eq_div (v : Word) (i : Nat) :
    (if i < 32 then v.getLsbD i else v.msb) = decide (v.toInt / (2 ^ i : Nat) % 2 = 1) := by
  rw [← toInt_asr, ← getLsbD_zero_eq_toInt, asr, BitVec.getLsbD_sshiftRight]
  simp

/-- Shifts by 32 and more leave the sign alone. -/
theorem asr_of_ge {n : Nat} (v : Word) (h : 32 ≤ n) : asr v n = asr v 32 := by
  apply BitVec.eq_of_getLsbD_eq
  intro i hi
  simp only [asr, BitVec.getLsbD_sshiftRight]
  rw [if_neg (by omega), if_neg (by omega)]

/-- A left shift: its value and the last bit shifted out. -/
theorem shiftLeft_carry {n : Nat} (v : Word) (h : n ≤ 32) :
    v.getLsbD (32 - n) = decide (v.toNat * 2 ^ n / 2 ^ 32 % 2 = 1) := by
  have hdiv : v.toNat * 2 ^ n / 2 ^ 32 = v.toNat / 2 ^ (32 - n) := by
    rw [show 2 ^ 32 = 2 ^ (32 - n) * 2 ^ n by rw [← Nat.pow_add]; congr 1; omega,
      Nat.mul_div_mul_right _ _ (Nat.two_pow_pos n)]
  rw [hdiv, getLsbD_eq_div]

theorem toNat_shiftLeft_eq (v : Word) (n : Nat) : (v <<< n).toNat = v.toNat * 2 ^ n % 2 ^ 32 := by
  rw [BitVec.toNat_shiftLeft, Nat.shiftLeft_eq]

theorem toNat_ushiftRight_eq (v : Word) (n : Nat) : (v >>> n).toNat = v.toNat / 2 ^ n := by
  rw [BitVec.toNat_ushiftRight, Nat.shiftRight_eq_div_pow]

/-- A rotation puts the bits shifted out above the others. -/
theorem toNat_ror {n : Nat} (v : Word) (h : n < 32) :
    (ror v n).toNat = v.toNat / 2 ^ n + v.toNat % 2 ^ n * 2 ^ (32 - n) := by
  have hpow : 2 ^ 32 = 2 ^ n * 2 ^ (32 - n) := by rw [← Nat.pow_add]; congr 1; omega
  have hhigh : v.toNat <<< (32 - n) % 2 ^ 32 = (v.toNat % 2 ^ n) <<< (32 - n) := by
    rw [Nat.shiftLeft_eq, Nat.shiftLeft_eq, hpow, Nat.mul_mod_mul_right]
  have hlow : v.toNat >>> n < 2 ^ (32 - n) := by
    rw [Nat.shiftRight_eq_div_pow]
    exact Nat.div_lt_of_lt_mul (hpow ▸ v.isLt)
  rw [ror, Nat.mod_eq_of_lt h, BitVec.toNat_rotateRight, Nat.mod_eq_of_lt h, hhigh, Nat.or_comm,
    ← Nat.shiftLeft_add_eq_or_of_lt hlow, Nat.shiftLeft_eq, Nat.shiftRight_eq_div_pow, Nat.add_comm]

/-- The carry of a rotation is the top bit of its result. -/
theorem msb_ror {n : Nat} (v : Word) (h0 : 0 < n) (h : n < 32) : (ror v n).msb = v.getLsbD (n - 1) := by
  rw [ror, Nat.mod_eq_of_lt h, BitVec.msb_rotateRight, BitVec.getMsbD, Nat.mod_eq_of_lt h,
    Nat.mod_eq_of_lt (show 32 - n < 32 by omega)]
  simp only [show 32 - n < 32 by omega, decide_true, Bool.true_and]
  congr 1
  omega

theorem toNat_pos_of_ne {n : BitVec 5} (h : n ≠ 0#5) : 0 < n.toNat :=
  Nat.pos_of_ne_zero fun e => h (BitVec.eq_of_toNat_eq e)

/-! ### Shifts by an immediate -/

theorem shiftImm_lsl {n : BitVec 5} (h : n ≠ 0#5) (v : Word) (c : Bool) :
    (shiftImm .lsl n v c).val.toNat = v.toNat * 2 ^ n.toNat % 2 ^ 32 ∧
      (shiftImm .lsl n v c).carry = decide (v.toNat * 2 ^ n.toNat / 2 ^ 32 % 2 = 1) := by
  simp only [shiftImm, if_neg h]
  exact ⟨toNat_shiftLeft_eq v _, shiftLeft_carry v (by omega)⟩

theorem shiftImm_lsr (n : BitVec 5) (v : Word) (c : Bool) :
    let k := if n = 0#5 then 32 else n.toNat
    (shiftImm .lsr n v c).val.toNat = v.toNat / 2 ^ k ∧
      (shiftImm .lsr n v c).carry = decide (v.toNat / 2 ^ (k - 1) % 2 = 1) := by
  unfold shiftImm
  split
  · exact ⟨(Nat.div_eq_of_lt v.isLt).symm, msb_eq_div v⟩
  · exact ⟨toNat_ushiftRight_eq v _, getLsbD_eq_div v _⟩

theorem shiftImm_asr (n : BitVec 5) (v : Word) (c : Bool) :
    let k := if n = 0#5 then 32 else n.toNat
    (shiftImm .asr n v c).val.toInt = v.toInt / (2 ^ k : Nat) ∧
      (shiftImm .asr n v c).carry = decide (v.toInt / (2 ^ (k - 1) : Nat) % 2 = 1) := by
  unfold shiftImm
  split
  · refine ⟨toInt_asr v 32, ?_⟩
    rw [← signBit_eq_div, if_pos (by decide), BitVec.msb_eq_getLsbD_last]
  · refine ⟨toInt_asr v _, ?_⟩
    rw [← signBit_eq_div, if_pos (by omega)]

theorem shiftImm_ror {n : BitVec 5} (h : n ≠ 0#5) (v : Word) (c : Bool) :
    (shiftImm .ror n v c).val.toNat = v.toNat / 2 ^ n.toNat + v.toNat % 2 ^ n.toNat * 2 ^ (32 - n.toNat) ∧
      (shiftImm .ror n v c).carry = (shiftImm .ror n v c).val.msb := by
  simp only [shiftImm, if_neg h]
  exact ⟨toNat_ror v n.isLt, (msb_ror v (toNat_pos_of_ne h) n.isLt).symm⟩

theorem shiftImm_rrx (v : Word) (c : Bool) :
    (shiftImm .ror 0#5 v c).val.toNat = v.toNat / 2 + c.toNat * 2 ^ 31 ∧
      (shiftImm .ror 0#5 v c).carry = decide (v.toNat % 2 = 1) := by
  constructor
  · show (BitVec.ofBool c ++ v.extractLsb' 1 31).toNat = _
    have hlow : (v.extractLsb' 1 31).toNat = v.toNat / 2 := by
      rw [BitVec.extractLsb'_toNat, Nat.shiftRight_eq_div_pow]
      have := v.isLt
      omega
    rw [BitVec.toNat_append, ← Nat.shiftLeft_add_eq_or_of_lt (v.extractLsb' 1 31).isLt, hlow, Nat.shiftLeft_eq,
      BitVec.toNat_ofBool, Nat.add_comm]
  · exact (getLsbD_eq_div v 0).trans (by simp)

theorem rotatedImm_toNat (rot : BitVec 4) (imm8 : BitVec 8) :
    (rotatedImm rot imm8).toNat = if rot = 0#4 then imm8.toNat
      else imm8.toNat / 2 ^ (2 * rot.toNat) + imm8.toNat % 2 ^ (2 * rot.toNat) * 2 ^ (32 - 2 * rot.toNat) := by
  have himm : (imm8.setWidth 32).toNat = imm8.toNat := by
    rw [BitVec.toNat_setWidth, Nat.mod_eq_of_lt (by omega)]
  rw [rotatedImm, toNat_ror _ (by omega), himm]
  split
  next h => simp [h, Nat.mod_one]
  next => rfl

/-- Settles O17. -/
theorem immediateShifts : Obligations.ImmediateShifts := by
  intro v c n k
  obtain ⟨hlsr, hlsrc⟩ := shiftImm_lsr n v c
  obtain ⟨hasr, hasrc⟩ := shiftImm_asr n v c
  obtain ⟨hrrx, hrrxc⟩ := shiftImm_rrx v c
  refine ⟨rfl, fun h => shiftImm_lsl h v c, hlsr, hlsrc, hasr, hasrc, fun h => shiftImm_ror h v c, hrrx, hrrxc,
    fun s rot imm8 => ⟨rotatedImm_toNat rot imm8, rfl⟩, fun s ty rm => rfl⟩

/-! ### Shifts by a register -/

theorem shiftReg_lsl {n : Nat} (h : 0 < n) (v : Word) (c : Bool) :
    (shiftReg .lsl n v c).val.toNat = v.toNat * 2 ^ n % 2 ^ 32 ∧
      (shiftReg .lsl n v c).carry = decide (v.toNat * 2 ^ n / 2 ^ 32 % 2 = 1) := by
  rw [shiftReg, if_neg (by omega)]
  split
  · exact ⟨toNat_shiftLeft_eq v n, shiftLeft_carry v (by omega)⟩
  next hn =>
    obtain ⟨k, rfl⟩ : ∃ k, n = k + 32 := ⟨n - 32, by omega⟩
    have hpow : v.toNat * 2 ^ (k + 32) = v.toNat * 2 ^ k * 2 ^ 32 := by rw [Nat.pow_add, Nat.mul_assoc]
    rw [hpow, Nat.mul_mod_left, Nat.mul_div_cancel _ (by decide)]
    split
    next hk =>
      obtain rfl : k = 0 := by omega
      exact ⟨rfl, by rw [getLsbD_eq_div]; simp⟩
    next hk =>
      obtain ⟨j, rfl⟩ : ∃ j, k = j + 1 := ⟨k - 1, by omega⟩
      refine ⟨rfl, ?_⟩
      rw [Nat.pow_succ, ← Nat.mul_assoc, Nat.mul_mod_left]
      rfl

theorem shiftReg_lsr {n : Nat} (h : 0 < n) (v : Word) (c : Bool) :
    (shiftReg .lsr n v c).val.toNat = v.toNat / 2 ^ n ∧
      (shiftReg .lsr n v c).carry = decide (v.toNat / 2 ^ (n - 1) % 2 = 1) := by
  have hzero : ∀ m, 32 ≤ m → v.toNat / 2 ^ m = 0 := fun m hm =>
    Nat.div_eq_of_lt (Nat.lt_of_lt_of_le v.isLt (Nat.pow_le_pow_right (by decide) hm))
  rw [shiftReg, if_neg (by omega)]
  split
  · exact ⟨toNat_ushiftRight_eq v n, getLsbD_eq_div v _⟩
  next hn =>
    rw [hzero n (by omega)]
    split
    next hn =>
      subst hn
      exact ⟨rfl, msb_eq_div v⟩
    next hn =>
      rw [hzero (n - 1) (by omega)]
      exact ⟨rfl, rfl⟩

theorem shiftReg_asr {n : Nat} (h : 0 < n) (v : Word) (c : Bool) :
    (shiftReg .asr n v c).val.toInt = v.toInt / (2 ^ n : Nat) ∧
      (shiftReg .asr n v c).carry = decide (v.toInt / (2 ^ (n - 1) : Nat) % 2 = 1) := by
  rw [← toInt_asr, ← signBit_eq_div, shiftReg, if_neg (by omega)]
  split
  · rw [if_pos (by omega)]
    exact ⟨rfl, rfl⟩
  next hn =>
    rw [asr_of_ge (n := n) v (by omega)]
    refine ⟨rfl, ?_⟩
    split
    · obtain rfl : n = 32 := by omega
      exact BitVec.msb_eq_getLsbD_last v
    · rfl

theorem shiftReg_ror {n : Nat} (h : 0 < n) (v : Word) (c : Bool) :
    (shiftReg .ror n v c).val.toNat =
        (v.toNat / 2 ^ (n % 32) + v.toNat % 2 ^ (n % 32) * 2 ^ (32 - n % 32)) % 2 ^ 32 ∧
      (shiftReg .ror n v c).carry = (shiftReg .ror n v c).val.msb := by
  have hmod : n % 32 < 32 := Nat.mod_lt n (by decide)
  rw [← toNat_ror v hmod, Nat.mod_eq_of_lt (BitVec.isLt _), shiftReg, if_neg (by omega)]
  split
  next hn =>
    rw [hn]
    exact ⟨by rw [toNat_ror v (by decide)]; simp [Nat.mod_one], rfl⟩
  next hn => exact ⟨rfl, (msb_ror v (by omega) hmod).symm⟩

/-- Settles O18. -/
theorem registerShifts : Obligations.RegisterShifts := by
  intro v c n
  refine ⟨fun ty => rfl, fun h => ?_, fun s ty rs rm hrs => ?_⟩
  · obtain ⟨hlsl, hlslc⟩ := shiftReg_lsl h v c
    obtain ⟨hlsr, hlsrc⟩ := shiftReg_lsr h v c
    obtain ⟨hasr, hasrc⟩ := shiftReg_asr h v c
    obtain ⟨hror, hrorc⟩ := shiftReg_ror h v c
    exact ⟨hlsl, hlslc, hlsr, hlsrc, hasr, hasrc, hror, hrorc⟩
  · rw [← s.reg_of_ne 8#32 rs hrs]
    rfl

end Sys2Proof.Machine
end

section
/-! ARM data processing (41_arm_dataproc_psr.md R405-R425): each operation is the shared end with an ALU output, and what
that end does. -/

namespace Sys2Proof.Machine

/-! ### The operations as ALU outputs -/

/-- An arithmetic operation runs the shared end with an output of its result and its flags. -/
theorem arithmeticOps_exec {s : State} {c : Cond} (hc : condHolds c s.cpu.cpsr = true) {sf : Bool} {rn rd : RegNo}
    {op2 : Operand2} {o : Instr × Word × Psr}
    (ho : o ∈ arithmeticOps c sf rn rd op2 (s.reg (rnAhead op2) rn) (s.shifter op2).val s.cpu.cpsr) :
    ∃ out, exec o.1 s = answer (s.writeResult o.1 sf rd op2 out) ∧ out.res = o.2.1 ∧
      s.cpu.cpsr.setArith out = o.2.2 := by
  simp only [arithmeticOps, List.mem_cons, List.not_mem_nil, or_false] at ho
  obtain rfl | rfl | rfl | rfl | rfl | rfl := ho
  · exact ⟨_, armCond_pass hc _, subtract_res _ _, setArith_sub _ _ _⟩
  · exact ⟨_, armCond_pass hc _, subtract_res _ _, setArith_sub _ _ _⟩
  · exact ⟨_, armCond_pass hc _, (addWithCarry_res _ _ false).trans (BitVec.add_zero _), setArith_sum _ _ _ false⟩
  · exact ⟨_, armCond_pass hc _, addWithCarry_res _ _ _, setArith_sum _ _ _ _⟩
  · exact ⟨_, armCond_pass hc _, subtractCarry_res _ _ _, setArith_diff _ _ _ _⟩
  · exact ⟨_, armCond_pass hc _, subtractCarry_res _ _ _, setArith_diff _ _ _ _⟩

/-- The flags of a logical output. -/
theorem setArith_logical (s : State) (op2 : Operand2) (v : Word) :
    s.cpu.cpsr.setArith (s.logical op2 v) = logicalFlags s.cpu.cpsr v (s.shifter op2).carry :=
  setLogical_signZero s.cpu.cpsr v (s.shifter op2).carry

theorem logicalOps_exec {s : State} {c : Cond} (hc : condHolds c s.cpu.cpsr = true) {sf : Bool} {rn rd : RegNo}
    {op2 : Operand2} {o : Instr × Word}
    (ho : o ∈ logicalOps c sf rn rd op2 (s.reg (rnAhead op2) rn) (s.shifter op2).val) :
    exec o.1 s = answer (s.writeResult o.1 sf rd op2 (s.logical op2 o.2)) := by
  simp only [logicalOps, List.mem_cons, List.not_mem_nil, or_false] at ho
  obtain rfl | rfl | rfl | rfl | rfl | rfl := ho
  all_goals exact armCond_pass hc _

theorem resultOps_exec {s : State} {c : Cond} (hc : condHolds c s.cpu.cpsr = true) {sf : Bool} {rn rd : RegNo}
    {op2 : Operand2} {o : Instr × Word}
    (ho : o ∈ resultOps c sf rn rd op2 (s.reg (rnAhead op2) rn) (s.shifter op2).val s.cpu.cpsr) :
    ∃ out, exec o.1 s = answer (s.writeResult o.1 sf rd op2 out) ∧ out.res = o.2 := by
  obtain ho | ho := List.mem_append.mp ho
  · obtain ⟨q, hq, rfl⟩ := List.mem_map.mp ho
    obtain ⟨out, he, hres, -⟩ := arithmeticOps_exec hc hq
    exact ⟨out, he, hres⟩
  · exact ⟨_, logicalOps_exec hc ho, rfl⟩

theorem compareOps_exec {s : State} {c : Cond} (hc : condHolds c s.cpu.cpsr = true) {rn ignored : RegNo}
    {op2 : Operand2} {o : Instr × Psr}
    (ho : o ∈ compareOps c rn ignored op2 (s.reg (rnAhead op2) rn) (s.shifter op2).val (s.shifter op2).carry
      s.cpu.cpsr) :
    ∃ out, exec o.1 s = answer (s.testResult o.1 op2 out) ∧ s.cpu.cpsr.setArith out = o.2 := by
  simp only [compareOps, List.mem_cons, List.not_mem_nil, or_false] at ho
  obtain rfl | rfl | rfl | rfl := ho
  · exact ⟨_, armCond_pass hc _, setArith_logical s op2 _⟩
  · exact ⟨_, armCond_pass hc _, setArith_logical s op2 _⟩
  · exact ⟨_, armCond_pass hc _, setArith_sub _ _ _⟩
  · exact ⟨_, armCond_pass hc _, setArith_sum _ _ _ false⟩

/-! ### The shared ends -/

/-- The bill of a data-processing instruction (R1201). -/
theorem State.billDataProc_eq (s : State) (op2 : Operand2) :
    s.billDataProc op2 = s.bill (s.codeCost + shiftCycles op2) := by
  cases op2 <;> rfl

/-- The end with a destination below r15. -/
theorem State.writeResult_completes {s : State} (i : Instr) (sf : Bool) {rd : RegNo} {op2 : Operand2} (o : AddOut)
    (harm : s.cpu.cpsr.t = false) (hb : badShiftAmount op2 = false) (hrd : rd ≠ 15#4) :
    Completes (answer (s.writeResult i sf rd op2 o)) fun t =>
      Effect s t [(s.here rd, o.res)] (if sf then s.cpu.cpsr.setArith o else s.cpu.cpsr) (s.cpu.pc + 4#32) ∧
      t.cycles = s.cycles + s.codeCost + shiftCycles op2 := by
  obtain ⟨t, ht, heff⟩ := s.writeResult_reg i sf rd op2 o hb hrd
  rw [harm] at heff
  refine ⟨t, ht, heff, ?_⟩
  simp only [State.writeResult, hb, Bool.false_eq_true, if_false, hrd, State.billDataProc_eq] at ht
  cases ht
  cases sf <;> simp [State.advance, State.setFlagsIf, Nat.add_assoc]

/-- The end of a comparison. -/
theorem State.testResult_completes {s : State} (i : Instr) {op2 : Operand2} (o : AddOut)
    (harm : s.cpu.cpsr.t = false) (hb : badShiftAmount op2 = false) :
    Completes (answer (s.testResult i op2 o)) fun t =>
      Effect s t [] (s.cpu.cpsr.setArith o) (s.cpu.pc + 4#32) ∧
      t.cycles = s.cycles + s.codeCost + shiftCycles op2 := by
  obtain ⟨t, ht, heff⟩ := s.testResult_ok i op2 o hb
  rw [harm] at heff
  refine ⟨t, ht, heff, ?_⟩
  simp only [State.testResult, hb, Bool.false_eq_true, if_false, State.billDataProc_eq] at ht
  cases ht
  simp [State.advance, State.setFlagsIf, Nat.add_assoc]

/-- The end with destination r15: the status given, the branch, the refill. -/
theorem Effect.jump (s : State) (k : Nat) (p : Psr) (v step : Word) :
    Effect s ((((s.bill k).setCpsr p).branchTo v).billRefill step) [] p (alignPc p.t v) :=
  ⟨⟨.nil _ _ rfl rfl, rfl, rfl, rfl, rfl⟩, rfl, fun _ => rfl⟩

/-- A refill bills the two accesses at the program counter (R1201). -/
theorem State.billRefill_cycles (u : State) {step : Word} (h : codeStep u.cpu.cpsr.t = step) :
    (u.billRefill step).cycles = u.cycles + (u.billRefill step).refillCost := by
  subst h
  exact Nat.add_assoc ..

/-- Settles O19. -/
theorem arithmeticCompletes : Obligations.ArithmeticCompletes := by
  intro s c sf rn rd op2 o ⟨harm, hcond⟩ hb hrd ho
  obtain ⟨out, he, hres, hflags⟩ := arithmeticOps_exec hcond ho
  rw [he, ← hres, ← hflags]
  exact State.writeResult_completes _ sf out harm hb hrd

/-- Settles O20. -/
theorem logicalCompletes : Obligations.LogicalCompletes := by
  intro s c sf rn rd op2 o ⟨harm, hcond⟩ hb hrd ho
  rw [logicalOps_exec hcond ho, ← setArith_logical]
  exact State.writeResult_completes _ sf (s.logical op2 o.2) harm hb hrd

/-- Settles O21. -/
theorem compareCompletes : Obligations.CompareCompletes := by
  intro s c rn ignored op2 o ⟨harm, hcond⟩ hb ho
  obtain ⟨out, he, hflags⟩ := compareOps_exec hcond ho
  rw [he, ← hflags]
  exact State.testResult_completes _ out harm hb

/-- Settles O22. -/
theorem dataProcessingBranches : Obligations.DataProcessingBranches := by
  intro s c rn op2 o ⟨harm, hcond⟩ hb ho
  obtain ⟨out, he, hres⟩ := resultOps_exec hcond ho
  rw [he, ← hres]
  simp only [State.writeResult, hb, Bool.false_eq_true, if_false, if_true, State.billDataProc_eq]
  have heff := Effect.jump s (s.codeCost + shiftCycles op2) s.cpu.cpsr out.res 4#32
  rw [harm] at heff
  have hstep : codeStep ((s.bill (s.codeCost + shiftCycles op2)).branchTo out.res).cpu.cpsr.t = 4#32 :=
    congrArg codeStep harm
  refine completes_ok ⟨heff, (State.billRefill_cycles _ hstep).trans ?_⟩
  exact congrArg (· + _) (Nat.add_assoc ..).symm

/-- Settles O23. -/
theorem dataProcessingReturns : Obligations.DataProcessingReturns := by
  intro s c rn op2 o ⟨harm, hcond⟩ hb ho
  obtain ⟨out, he, hres⟩ := resultOps_exec hcond ho
  have hfault : s.restorable = none → FaultsUnpredictable o.1 s := by
    intro h
    unfold FaultsUnpredictable
    rw [he]
    simp [State.writeResult, hb, h, State.unpredictable, State.raise, answer]
  refine ⟨fun hk => hfault (by simp [State.restorable, State.spsr, hk]), fun k hk => ⟨fun hq => hfault ?_, fun hq => ?_⟩⟩
  · simp [State.restorable, State.spsr, hk, hq]
  · have hrest : s.restorable = some (s.cpu.spsr.get k) := by simp [State.restorable, State.spsr, hk, hq]
    rw [he, ← hres]
    simp only [State.writeResult, hb, Bool.false_eq_true, if_false, if_true, State.billDataProc_eq, hrest]
    exact completes_ok (Effect.jump s _ _ _ _)

/-- Settles O24. -/
theorem shiftAmountInR15Faults : Obligations.ShiftAmountInR15Faults := by
  intro s c sf rn rd rm ty x y carry p i ⟨harm, hcond⟩ hi
  unfold FaultsUnpredictable
  obtain hi | hi := List.mem_append.mp hi
  · obtain ⟨o, ho, rfl⟩ := List.mem_map.mp
      (show i ∈ (resultOps c sf rn rd (.regReg 15#4 ty rm) (s.reg (rnAhead (.regReg 15#4 ty rm)) rn)
        (s.shifter (.regReg 15#4 ty rm)).val s.cpu.cpsr).map (·.1) from hi)
    obtain ⟨out, he, -⟩ := resultOps_exec hcond ho
    rw [he]
    rfl
  · obtain ⟨o, ho, rfl⟩ := List.mem_map.mp
      (show i ∈ (compareOps c rn rd (.regReg 15#4 ty rm) (s.reg (rnAhead (.regReg 15#4 ty rm)) rn)
        (s.shifter (.regReg 15#4 ty rm)).val (s.shifter (.regReg 15#4 ty rm)).carry s.cpu.cpsr).map (·.1) from hi)
    obtain ⟨out, he, -⟩ := compareOps_exec hcond ho
    rw [he]
    rfl

end Sys2Proof.Machine
end

section
/-! The status registers (41_arm_dataproc_psr.md R430-R432) and the multiplies (42_arm_multiply.md R465-R478,
45_thumb_alu.md R633). -/

namespace Sys2Proof.Machine

/-! ### Forbidden operands -/

/-- An instruction that executes with operands its rule forbids (R354). -/
theorem faultsUnpredictable_of_forbids {i : Instr} {s : State} (hx : s.executes i = true) (hf : s.forbids i = true) :
    FaultsUnpredictable i s := s.forbids_stops i hx hf

theorem State.executes_of_cond {i : Instr} {c : Cond} {s : State} (hi : i.cond = some c)
    (hc : condHolds c s.cpu.cpsr = true) : s.executes i = true := by
  simp [State.executes, hi, hc]

theorem ArmRuns.faults {i : Instr} {c : Cond} {s : State} (h : ArmRuns c s) (hi : i.cond = some c)
    (hf : s.forbids i = true) : FaultsUnpredictable i s :=
  faultsUnpredictable_of_forbids (State.executes_of_cond hi h.2) hf

theorem State.bill_bill (s : State) (j k : Nat) : (s.bill j).bill k = s.bill (j + k) := by
  simp [State.bill, Nat.add_assoc]

/-! ### Status registers -/

theorem toNat_append_eq {n m : Nat} (x : BitVec n) (y : BitVec m) : (x ++ y).toNat = x.toNat * 2 ^ m + y.toNat := by
  rw [BitVec.toNat_append, ← Nat.shiftLeft_add_eq_or_of_lt y.isLt, Nat.shiftLeft_eq]

/-- The status word by its bits (R65). -/
theorem Psr.toNat_toWord (p : Psr) :
    p.toWord.toNat = p.n.toNat * 2 ^ 31 + p.z.toNat * 2 ^ 30 + p.c.toNat * 2 ^ 29 + p.v.toNat * 2 ^ 28 +
      p.i.toNat * 2 ^ 7 + p.f.toNat * 2 ^ 6 + p.t.toNat * 2 ^ 5 + p.mode.toNat := by
  simp only [Psr.toWord, toNat_append_eq, BitVec.toNat_ofBool, BitVec.toNat_ofNat]
  omega

/-- The end of an instruction that writes one register and keeps the flags, in ARM state. -/
theorem State.writeArmReg_effect {s : State} (harm : s.cpu.cpsr.t = false) (n : Nat) {rd : RegNo} (hrd : rd ≠ 15#4)
    (v : Word) :
    Effect s (((s.bill n).setReg rd v).advance) [(s.here rd, v)] s.cpu.cpsr (s.cpu.pc + 4#32) ∧
      (((s.bill n).setReg rd v).advance).cycles = s.cycles + n := by
  have hadvance : ((s.bill n).setReg rd v).advance = ((s.bill n).setReg rd v).setPc (s.cpu.pc + 4#32) := by
    simp [State.advance, harm, codeStep]
  rw [hadvance]
  exact ⟨Effect.writeKeep s n rd v _ hrd, by simp⟩

/-- The end of an instruction that writes CPSR and no register, in ARM state. -/
theorem State.writeArmCpsr_effect {s : State} (n : Nat) {p : Psr} (harm : p.t = false) :
    Effect s (((s.bill n).setCpsr p).advance) [] p (s.cpu.pc + 4#32) ∧
      (((s.bill n).setCpsr p).advance).cycles = s.cycles + n := by
  have hadvance : ((s.bill n).setCpsr p).advance = ((s.bill n).setCpsr p).setPc (s.cpu.pc + 4#32) := by
    simp [State.advance, harm, codeStep]
  rw [hadvance]
  exact ⟨Effect.status s n p _, rfl⟩

/-- Settles O25. -/
theorem mrsReadsStatus : Obligations.MrsReadsStatus := by
  intro s c r rd hruns
  have hspsr : spsrIndex s.cpu.cpsr.mode = none → s.spsr = none := fun h => by simp [State.spsr, h]
  refine ⟨fun hbad => hruns.faults rfl ?_, fun p hrd hp => ?_⟩
  · obtain hrd | ⟨hr, hk⟩ := hbad
    · simp [State.forbids, hrd]
    · simp [State.forbids, hr, hspsr hk]
  · have hsource : (if r then s.spsr else some s.cpu.cpsr) = some p := by
      cases r
      · simp_all
      · simpa using hp
    have he : exec (.mrs c r rd) s = answer (.ok (((s.bill s.codeCost).setReg rd p.toWord).advance)) := by
      refine (armCond_pass hruns.2 _).trans ?_
      rw [hsource, State.moveFromPsr, if_neg hrd]
      rfl
    obtain ⟨heff, hcycles⟩ := State.writeArmReg_effect hruns.1 s.codeCost hrd p.toWord
    rw [he]
    exact completes_ok ⟨_, heff, hcycles, p.toNat_toWord⟩

/-- The flag field of the value MSR writes (R431, R432). -/
theorem msrValue_flags (mask : BitVec 4) (control : Bool) (v : Word) (p : Psr) :
    let q := msrValue mask control v p
    if mask.getLsbD 3 then q.n = v.getLsbD 31 ∧ q.z = v.getLsbD 30 ∧ q.c = v.getLsbD 29 ∧ q.v = v.getLsbD 28
    else q.n = p.n ∧ q.z = p.z ∧ q.c = p.c ∧ q.v = p.v := by
  unfold msrValue
  cases mask.getLsbD 3 <;> cases mask.getLsbD 0 && control <;> exact ⟨rfl, rfl, rfl, rfl⟩

/-- The control field of the value MSR writes (R431, R432). -/
theorem msrValue_control (mask : BitVec 4) (control : Bool) (v : Word) (p : Psr) :
    let q := msrValue mask control v p
    if mask.getLsbD 0 && control then
      q.i = v.getLsbD 7 ∧ q.f = v.getLsbD 6 ∧ q.t = v.getLsbD 5 ∧ q.mode = v.extractLsb' 0 5
    else q.i = p.i ∧ q.f = p.f ∧ q.t = p.t ∧ q.mode = p.mode := by
  unfold msrValue
  cases mask.getLsbD 3 <;> cases mask.getLsbD 0 && control <;> exact ⟨rfl, rfl, rfl, rfl⟩

/-- Both forms of MSR to CPSR are the shared operation on their operand. -/
theorem exec_msrCpsr {s : State} {c : Cond} {mask rot : BitVec 4} {imm8 : BitVec 8} {rm : RegNo} (hruns : ArmRuns c s)
    {o : Instr × Word}
    (ho : o ∈ [(Instr.msrCpsrReg c mask rm, s.regOf s.cpu.cpsr.mode rm),
      (.msrCpsrImm c mask rot imm8, rotatedImm rot imm8)])
    (hrm : o.1 = Instr.msrCpsrReg c mask rm → rm ≠ 15#4) :
    exec o.1 s = answer (s.msrCpsr o.1 mask o.2) := by
  simp only [List.mem_cons, List.not_mem_nil, or_false] at ho
  obtain rfl | rfl := ho
  · refine (armCond_pass hruns.2 _).trans ?_
    rw [if_neg (hrm rfl), s.reg_of_ne 8#32 rm (hrm rfl)]
  · exact armCond_pass hruns.2 _

/-- Settles O26. -/
theorem msrWritesCpsr : Obligations.MsrWritesCpsr := by
  intro s c mask rot imm8 rm hruns
  refine ⟨hruns.faults rfl rfl, fun o ho hrm => ?_⟩
  rw [FaultsUnpredictable, exec_msrCpsr hruns ho hrm]
  intro v p control
  have hctl : control ↔ (mask.getLsbD 0 && p.mode != modeUsr) = true := by
    simp only [control, Bool.and_eq_true, bne_iff_ne]
  refine ⟨fun hc hbad => ?_, fun hgood => ?_⟩
  · have hcheck : (mask.getLsbD 0 && s.cpu.cpsr.mode != modeUsr &&
        (!legalMode (o.2.extractLsb' 0 5) || o.2.getLsbD 5 != s.cpu.cpsr.t)) = true := by
      rw [hctl.mp hc, hruns.1, Bool.true_and]
      obtain h | h := hbad <;> simp [v] at h <;> simp [h]
    rw [State.msrCpsr, if_pos hcheck]
    rfl
  · have hcheck : ¬(mask.getLsbD 0 && s.cpu.cpsr.mode != modeUsr &&
        (!legalMode (o.2.extractLsb' 0 5) || o.2.getLsbD 5 != s.cpu.cpsr.t)) = true := by
      rw [Bool.and_eq_true, ← hctl, hruns.1]
      rintro ⟨hc, hbad⟩
      obtain ⟨hl, ht⟩ := hgood hc
      simp only [v] at hl ht
      rw [hl, ht] at hbad
      cases hbad
    have hfields := msrValue_control mask (s.cpu.cpsr.mode != modeUsr) o.2 s.cpu.cpsr
    have hflags := msrValue_flags mask (s.cpu.cpsr.mode != modeUsr) o.2 s.cpu.cpsr
    rw [State.msrCpsr, if_neg hcheck]
    generalize msrValue mask (s.cpu.cpsr.mode != modeUsr) o.2 s.cpu.cpsr = q at *
    have ht : q.t = s.cpu.cpsr.t := by
      dsimp only at hfields
      split at hfields
      next h => rw [hfields.2.2.1, hruns.1, ← (hgood (hctl.mpr h)).2]
      next => exact hfields.2.2.1
    obtain ⟨heff, hcycles⟩ := State.writeArmCpsr_effect (s := s) s.codeCost (ht.trans hruns.1)
    refine completes_ok ⟨q, heff, hcycles, ht, hflags, fun hc => ?_, fun hc => ?_⟩
    · have := hctl.mp hc
      simp only [p] at this
      rw [if_pos this] at hfields
      exact ⟨hfields.1, hfields.2.1, hfields.2.2.2⟩
    · have := mt hctl.mpr hc
      simp only [p] at this
      rw [if_neg this] at hfields
      exact ⟨hfields.1, hfields.2.1, hfields.2.2.2⟩

theorem exec_msrSpsr {s : State} {c : Cond} {mask rot : BitVec 4} {imm8 : BitVec 8} {rm : RegNo} (hruns : ArmRuns c s)
    {o : Instr × Word}
    (ho : o ∈ [(Instr.msrSpsrReg c mask rm, s.regOf s.cpu.cpsr.mode rm),
      (.msrSpsrImm c mask rot imm8, rotatedImm rot imm8)])
    (hrm : o.1 = Instr.msrSpsrReg c mask rm → rm ≠ 15#4) :
    exec o.1 s = answer (s.msrSpsr o.1 mask o.2) := by
  simp only [List.mem_cons, List.not_mem_nil, or_false] at ho
  obtain rfl | rfl := ho
  · refine (armCond_pass hruns.2 _).trans ?_
    rw [if_neg (hrm rfl), s.reg_of_ne 8#32 rm (hrm rfl)]
  · exact armCond_pass hruns.2 _

/-- Settles O27. -/
theorem msrWritesSpsr : Obligations.MsrWritesSpsr := by
  intro s c mask rot imm8 rm hruns
  refine ⟨hruns.faults rfl rfl, fun o ho hrm => ?_⟩
  rw [FaultsUnpredictable, exec_msrSpsr hruns ho hrm]
  intro v
  refine ⟨fun hk => ?_, fun k hk => ?_⟩
  · rw [s.msrSpsr_forbidden o.1 mask o.2 (by simp [State.spsr, hk])]
    rfl
  · intro p
    have hspsr : s.spsr = some p := by simp [State.spsr, hk, p]
    have he : s.msrSpsr o.1 mask o.2 =
        .ok (((s.bill s.codeCost).setSpsrOf s.cpu.cpsr.mode (msrValue mask true o.2 p)).advance) := by
      rw [State.msrSpsr, hspsr]
      rfl
    have hfields := msrValue_control mask true o.2 p
    have hflags := msrValue_flags mask true o.2 p
    rw [Bool.and_true] at hfields
    rw [he]
    generalize msrValue mask true o.2 p = q at *
    have hstep : (s.setSpsrOf s.cpu.cpsr.mode q).cpu.pc + codeStep s.cpu.cpsr.t = s.cpu.pc + 4#32 := by
      rw [hruns.1, State.setSpsrOf_cpu_pc]
      rfl
    have hset : (s.cpu.spsr.set k.val q k.isLt).get k = q := Vector.getElem_set_self k.isLt
    have hget : (((s.bill s.codeCost).setSpsrOf s.cpu.cpsr.mode q).advance).cpu.spsr.get k = q := by
      simpa [State.advance, State.setSpsrOf_spsr _ _ _ k hk] using hset
    refine completes_ok ?_
    rw [hget]
    simp only [State.setSpsrOf, hk] at hstep ⊢
    exact ⟨.nil _ _ rfl rfl, rfl, hstep, rfl, fun _ => rfl, rfl, ⟨rfl, rfl⟩, hflags, hfields⟩

/-! ### Multiply -/

theorem badMul_eq_true {rd rm : RegNo} {rs : List RegNo} : badMul rd rm rs = true ↔ MulForbidden rd rm rs := by
  simp only [badMul, anyPc, MulForbidden, List.contains_eq_mem, List.cons_append, List.mem_cons, List.mem_append,
    List.not_mem_nil, or_false, Bool.or_eq_true, decide_eq_true_eq, beq_iff_eq, eq_comm (a := (15#4 : RegNo))]
  grind

theorem badLong_eq_true {rdHi rdLo rs rm : RegNo} :
    badLong rdHi rdLo rs rm = true ↔ MulLongForbidden rdHi rdLo rs rm := by
  simp only [badLong, anyPc, MulLongForbidden, List.contains_eq_mem, List.mem_cons, List.not_mem_nil, or_false,
    Bool.or_eq_true, decide_eq_true_eq, beq_iff_eq, eq_comm (a := (15#4 : RegNo))]
  grind

/-- Settles O30. -/
theorem multiplyOperandFaults : Obligations.MultiplyOperandFaults := by
  refine ⟨fun s c sf rd ra rs rm hruns => ⟨fun h => hruns.faults rfl (badMul_eq_true.mpr h),
    fun h => hruns.faults rfl (badMul_eq_true.mpr h)⟩, fun s c sf rdHi rdLo rs rm i hruns h hi => ?_,
    fun s r _ => faultsUnpredictable_of_forbids rfl (beq_self_eq_true r)⟩
  simp only [List.mem_cons, List.not_mem_nil, or_false] at hi
  obtain rfl | rfl | rfl | rfl := hi
  all_goals exact hruns.faults rfl (badLong_eq_true.mpr h)

/-- The end of a multiply: one register, and with S the flags with a free carry (R467). -/
theorem State.mulEnd_effect (s : State) (n : Nat) (sf : Bool) {rd : RegNo} (hrd : rd ≠ 15#4) (v : Word) :
    let t := (((s.bill n).setReg rd v).setMulFlagsIf sf v).advance
    ∃ free : Bool, EffectDraws s t [(s.here rd, v)]
        (if sf then { signZero s.cpu.cpsr v with c := free } else s.cpu.cpsr) s.following ∧
      t.cycles = s.cycles + n ∧ (sf = false → t.draws = s.draws) := by
  cases sf
  · refine ⟨false, ⟨⟨(Wrote.setRegOf s s.cpu.cpsr.mode rd v hrd).of_gpr ?_ ?_, ?_, ?_, ?_, ?_⟩, ?_, fun _ => ?_⟩, ?_,
      fun _ => ?_⟩
    all_goals
      simp only [State.setReg_def, State.setRegOf, if_neg hrd, OnlyCpuDraws]
      rfl
  · refine ⟨s.drawFlag, ⟨⟨(Wrote.setRegOf s s.cpu.cpsr.mode rd v hrd).of_gpr ?_ ?_, ?_, ?_, ?_, ?_⟩, ?_, fun _ => ?_⟩,
      ?_, nofun⟩
    all_goals
      simp only [State.setReg_def, State.setRegOf, if_neg hrd, OnlyCpuDraws, ← setNZ_signZero]
      rfl

theorem setMulLong_signZeroLong (p : Psr) (v : BitVec 64) (c f : Bool) :
    p.setMulLong v c f = { signZeroLong p v with c := c, v := f } := by
  simp only [Psr.setMulLong, signZeroLong, BitVec.msb_eq_decide, Psr.mk.injEq, and_true, true_and]
  rw [Bool.eq_iff_iff]
  simp [← BitVec.toNat_inj]

/-- The end of a long multiply: two registers, and with S the flags with free C and V (R467). -/
theorem State.mulLongEnd_effect (s : State) (n : Nat) (sf : Bool) {rdHi rdLo : RegNo} (hhi : rdHi ≠ 15#4)
    (hlo : rdLo ≠ 15#4) (v : BitVec 64) :
    let t := ((((s.bill n).setReg rdLo (v.extractLsb' 0 32)).setReg rdHi (v.extractLsb' 32 32)).setMulLongFlagsIf sf
      v).advance
    ∃ freeC freeV : Bool,
      EffectDraws s t [(s.here rdHi, v.extractLsb' 32 32), (s.here rdLo, v.extractLsb' 0 32)]
        (if sf then { signZeroLong s.cpu.cpsr v with c := freeC, v := freeV } else s.cpu.cpsr) s.following ∧
      t.cycles = s.cycles + n ∧ (sf = false → t.draws = s.draws) := by
  have hw := (Wrote.setRegOf s s.cpu.cpsr.mode rdLo (v.extractLsb' 0 32) hlo).cons s.cpu.cpsr.mode rdHi
    (v.extractLsb' 32 32) hhi
  cases sf
  · refine ⟨false, false, ⟨⟨hw.of_gpr ?_ ?_, ?_, ?_, ?_, ?_⟩, ?_, fun _ => ?_⟩, ?_, fun _ => ?_⟩
    all_goals
      simp only [State.setReg_def, State.setRegOf, if_neg hhi, if_neg hlo, OnlyCpuDraws]
      rfl
  · refine ⟨s.drawFlag, s.draw.2.drawFlag, ⟨⟨hw.of_gpr ?_ ?_, ?_, ?_, ?_, ?_⟩, ?_, fun _ => ?_⟩, ?_, nofun⟩
    all_goals
      simp only [State.setReg_def, State.setRegOf, if_neg hhi, if_neg hlo, OnlyCpuDraws, if_true,
        ← setMulLong_signZeroLong]
      rfl

theorem toNat_mul_eq (x y : Word) : x * y = BitVec.ofNat 32 (x.toNat * y.toNat) := by
  rw [BitVec.ofNat_mul, BitVec.ofNat_toNat, BitVec.ofNat_toNat, BitVec.setWidth_eq, BitVec.setWidth_eq]

theorem ne_of_not_mulForbidden {rd rm : RegNo} {rs : List RegNo} (h : ¬MulForbidden rd rm rs) : rd ≠ 15#4 :=
  fun e => h (.inl e)

/-- Settles O28. -/
theorem multiplyCompletes : Obligations.MultiplyCompletes := by
  constructor
  · intro s c sf rd ra rs rm o hruns x y ho hgood
    have hrun : ∃ v, v = BitVec.ofNat 32 o.2.1 ∧ exec o.1 s = answer (.ok ((((s.bill (s.codeCost +
        (mulCycles true (s.reg 8#32 rs) + o.2.2.2))).setReg rd v).setMulFlagsIf sf v).advance)) := by
      have hb : badMul rd rm o.2.2.1 ≠ true := fun h => hgood (badMul_eq_true.mp h)
      simp only [List.mem_cons, List.not_mem_nil, or_false] at ho
      obtain rfl | rfl := ho
      · refine ⟨_, toNat_mul_eq _ _, (armCond_pass hruns.2 _).trans ?_⟩
        rw [State.writeMul, if_neg hb, State.billCode, State.billAccess, State.bill_bill]
        rfl
      · refine ⟨s.reg 8#32 rm * s.reg 8#32 rs + s.reg 8#32 ra, ?_, (armCond_pass hruns.2 _).trans ?_⟩
        · rw [toNat_mul_eq, BitVec.ofNat_add, BitVec.ofNat_toNat, BitVec.setWidth_eq]
        · rw [State.writeMul, if_neg hb, State.billCode, State.billAccess, State.bill_bill]
          rfl
    obtain ⟨v, hv, he⟩ := hrun
    obtain ⟨free, heff, hcycles, hdraws⟩ := s.mulEnd_effect (s.codeCost +
        (mulCycles true (s.reg 8#32 rs) + o.2.2.2)) sf (ne_of_not_mulForbidden hgood) v
    rw [he, ← hv]
    refine completes_ok ⟨free, ?_, ?_, hdraws⟩
    · rw [State.following, hruns.1] at heff
      exact heff
    · rw [hcycles]
      simp only [Nat.add_assoc]
  · intro s rs rd hthumb hne
    have he : exec (.tMul rs rd) s = answer (.ok ((((s.bill (s.codeCost + mulCycles true (s.low rd))).setReg rd.up
        (s.low rs * s.low rd)).setMulFlagsIf true (s.low rs * s.low rd)).advance)) := by
      refine (congrArg answer (if_neg hne)).trans ?_
      rw [State.billCode, State.billAccess, State.bill_bill]
      rfl
    obtain ⟨free, heff, hcycles, -⟩ := s.mulEnd_effect (s.codeCost + mulCycles true (s.low rd)) true (up_ne_pc rd)
      (s.low rs * s.low rd)
    rw [State.following, hthumb, toNat_mul_eq] at heff
    rw [he]
    refine completes_ok ⟨free, ?_, ?_⟩
    · rw [toNat_mul_eq]
      exact heff
    · rw [hcycles]
      simp only [Nat.add_assoc]

/-- An unsigned factor as an integer. -/
theorem setWidth_eq_ofInt (x : Word) : x.setWidth 64 = BitVec.ofInt 64 x.toNat := by
  rw [BitVec.ofInt_natCast, BitVec.ofNat_toNat]

/-- The accumulator as an integer. -/
theorem append_eq_ofInt (x y : Word) : (x ++ y : BitVec 64) = BitVec.ofInt 64 (x.toNat * 2 ^ 32 + y.toNat) := by
  rw [show (x.toNat * 2 ^ 32 + y.toNat : Int) = ((x ++ y : BitVec 64).toNat : Int) by rw [toNat_append_eq, Int.natCast_add, Int.natCast_mul]; rfl,
    BitVec.ofInt_natCast, BitVec.ofNat_toNat, BitVec.setWidth_eq]

/-- Settles O29. -/
theorem longMultiplyCompletes : Obligations.LongMultiplyCompletes := by
  intro s c sf rdHi rdLo rs rm o hruns hgood x y acc ho
  have hb : badLong rdHi rdLo rs rm ≠ true := fun h => hgood (badLong_eq_true.mp h)
  obtain ⟨v, hv, he⟩ : ∃ v, v = BitVec.ofInt 64 o.2.1 ∧ exec o.1 s =
      answer (s.writeLong o.1 sf rdHi rdLo rs rm (mulCycles o.2.2.1 y + o.2.2.2) v) := by
    simp only [List.mem_cons, List.not_mem_nil, or_false] at ho
    obtain rfl | rfl | rfl | rfl := ho
    · refine ⟨_, ?_, armCond_pass hruns.2 _⟩
      rw [setWidth_eq_ofInt, setWidth_eq_ofInt, BitVec.ofInt_mul]
    · refine ⟨_, ?_, armCond_pass hruns.2 _⟩
      rw [setWidth_eq_ofInt, setWidth_eq_ofInt, State.accumulator, append_eq_ofInt, ← BitVec.ofInt_mul,
        ← BitVec.ofInt_add]
    · exact ⟨_, (BitVec.ofInt_mul ..).symm, armCond_pass hruns.2 _⟩
    · refine ⟨_, ?_, armCond_pass hruns.2 _⟩
      show BitVec.ofInt 64 x.toInt * BitVec.ofInt 64 y.toInt + s.accumulator rdHi rdLo = _
      rw [State.accumulator, append_eq_ofInt, ← BitVec.ofInt_mul, ← BitVec.ofInt_add]
  have hhi : rdHi ≠ 15#4 := fun e => hgood (.inl e)
  have hlo : rdLo ≠ 15#4 := fun e => hgood (.inr (.inl e))
  obtain ⟨freeC, freeV, heff, hcycles, hdraws⟩ :=
    s.mulLongEnd_effect (s.codeCost + (mulCycles o.2.2.1 y + o.2.2.2)) sf hhi hlo v
  rw [State.following, hruns.1] at heff
  rw [he, State.writeLong, if_neg hb, State.billCode, State.billAccess, State.bill_bill, ← hv]
  refine completes_ok ⟨freeC, freeV, heff, ?_, hdraws⟩
  exact hcycles.trans (by simp only [Nat.add_assoc])

end Sys2Proof.Machine
end

section
/-! ARM loads, stores, block transfers and swap (43_arm_loadstore.md R500-R562): what each form forbids, the shared ends,
and the self-modification window (20_memory.md R205). -/

namespace Sys2Proof.Machine

/-! ### Forbidden operands -/

theorem badOffset_eq_true {off : Offset} : badOffset off = true ↔ ∃ amount ty, off = .reg amount ty 15#4 := by
  cases off <;> simp [badOffset]

theorem State.access_wb {s : State} {p u w : Bool} {rn : RegNo} {v : Word} :
    (s.access p u w rn v).wb = true ↔ p = false ∨ w = true := by
  simp [State.access]

/-- R509 for the loads. -/
theorem badLoad_eq_true {s : State} {byte p u w : Bool} {rn rd : RegNo} {off : Offset} {v : Word} :
    badLoad (s.access p u w rn v) rn rd off byte = true ↔ SingleForbidden true byte p w rn rd off := by
  simp only [badLoad, Bool.or_eq_true, Bool.and_eq_true, badOffset_eq_true, State.access_wb, beq_iff_eq, SingleForbidden]
  generalize (∃ amount ty, off = Offset.reg amount ty 15#4) = bad
  grind

/-- R509 for the stores. -/
theorem badStore_eq_true {s : State} {byte p u w : Bool} {rn rd : RegNo} {off : Offset} {v : Word} :
    badStore (s.access p u w rn v) rn off = true ↔ SingleForbidden false byte p w rn rd off := by
  simp only [badStore, Bool.or_eq_true, Bool.and_eq_true, badOffset_eq_true, State.access_wb, beq_iff_eq, SingleForbidden]
  generalize (∃ amount ty, off = Offset.reg amount ty 15#4) = bad
  grind

/-- R525, with a register offset that may be r15 or an immediate one. -/
theorem badHalf_eq_true {s : State} {load badRm p u w : Bool} {rn rd : RegNo} {v : Word} {rm : Option RegNo}
    (hrm : badRm = true ↔ rm = some 15#4) :
    badHalf (s.access p u w rn v) load p w rn rd badRm = true ↔ HalfForbidden load p w rn rd rm := by
  simp only [badHalf, Bool.or_eq_true, Bool.and_eq_true, hrm, State.access_wb, beq_iff_eq, Bool.not_eq_true',
    HalfForbidden]
  grind

/-- R562. -/
theorem badSwap_eq_true {rn rd rm : RegNo} :
    badSwap rn rd rm = true ↔ rd = 15#4 ∨ rm = 15#4 ∨ rn = 15#4 ∨ rn = rd ∨ rn = rm := by
  simp only [badSwap, anyPc, List.contains_eq_mem, List.mem_cons, List.not_mem_nil, or_false, Bool.or_eq_true,
    decide_eq_true_eq, beq_iff_eq, eq_comm (a := (15#4 : RegNo))]
  grind

/-- Every load: its condition, and the restrictions of its rule. -/
theorem armLoads_forbids {s : State} {c : Cond} {p u w : Bool} {rn rd rm : RegNo} {off : Offset} {imm8 : BitVec 8}
    {o : Instr × Access × LoadForm × Prop} (ho : o ∈ armLoads s c p u w rn rd rm off imm8) :
    o.1.cond = some c ∧ (s.forbids o.1 = true ↔ o.2.2.2) := by
  simp only [armLoads, List.mem_cons, List.not_mem_nil, or_false] at ho
  obtain rfl | rfl | rfl | rfl | rfl | rfl | rfl | rfl | rfl | rfl := ho
  · exact ⟨rfl, badLoad_eq_true⟩
  · exact ⟨rfl, badLoad_eq_true⟩
  · exact ⟨rfl, badLoad_eq_true⟩
  · exact ⟨rfl, badLoad_eq_true⟩
  · exact ⟨rfl, badHalf_eq_true (by simp)⟩
  · exact ⟨rfl, badHalf_eq_true (by simp)⟩
  · exact ⟨rfl, badHalf_eq_true (by simp)⟩
  · exact ⟨rfl, badHalf_eq_true (by simp)⟩
  · exact ⟨rfl, badHalf_eq_true (by simp)⟩
  · exact ⟨rfl, badHalf_eq_true (by simp)⟩

/-- Every store: its condition, and the restrictions of its rule. -/
theorem armStores_forbids {s : State} {c : Cond} {p u w : Bool} {rn rd rm : RegNo} {off : Offset} {imm8 : BitVec 8}
    {o : Instr × Access × Width × Prop} (ho : o ∈ armStores s c p u w rn rd rm off imm8) :
    o.1.cond = some c ∧ (s.forbids o.1 = true ↔ o.2.2.2) := by
  simp only [armStores, List.mem_cons, List.not_mem_nil, or_false] at ho
  obtain rfl | rfl | rfl | rfl | rfl | rfl := ho
  · exact ⟨rfl, badStore_eq_true⟩
  · exact ⟨rfl, badStore_eq_true⟩
  · exact ⟨rfl, badStore_eq_true⟩
  · exact ⟨rfl, badStore_eq_true⟩
  · exact ⟨rfl, badHalf_eq_true (by simp)⟩
  · exact ⟨rfl, badHalf_eq_true (by simp)⟩

/-- The lowest register of a list (R544). -/
theorem regList_head?_eq_some {list : BitVec 16} {rn : RegNo} :
    (regList list).head? = some rn ↔ list.getLsbD rn.toNat = true ∧ ∀ k < rn.toNat, list.getLsbD k = false := by
  rw [regList, List.head?_map, List.head?_filter, Option.map_eq_some_iff]
  constructor
  · rintro ⟨k, hk, rfl⟩
    obtain ⟨hl, hlt, hmin⟩ := List.find?_range_eq_some.mp hk
    have hk16 : k < 16 := List.mem_range.mp hlt
    rw [BitVec.toNat_ofNat, Nat.mod_eq_of_lt (by omega)]
    exact ⟨hl, fun j hj => by simpa using hmin j hj⟩
  · rintro ⟨hl, hmin⟩
    exact ⟨rn.toNat, List.find?_range_eq_some.mpr ⟨hl, List.mem_range.mpr rn.isLt, fun j hj => by simp [hmin j hj]⟩,
      BitVec.ofNat_toNat ..⟩

theorem State.spsr_eq_none {s : State} : s.spsr = none ↔ spsrIndex s.cpu.cpsr.mode = none := by
  simp [State.spsr]

/-- R545 for STM. -/
theorem badStm_eq_true {s : State} {sf w : Bool} {rn : RegNo} {list : BitVec 16} :
    s.badStm sf w rn list = true ↔ StoreBlockForbidden s sf w rn list := by
  have hhead : list.getLsbD rn.toNat = true →
      ((regList list).head? ≠ some rn ↔ ∃ k, k < rn.toNat ∧ list.getLsbD k = true) := fun hl => by
    simp [regList_head?_eq_some, hl]
  have hbase := and_congr_right (a := w = true) fun _ => and_congr_right hhead
  simp only [State.badStm, StoreBlockForbidden, BlockForbidden, Bool.or_eq_true, Bool.and_eq_true, beq_iff_eq,
    bne_iff_ne, Option.isNone_iff_eq_none, State.spsr_eq_none, and_assoc, hbase]
  generalize (∃ k, k < rn.toNat ∧ list.getLsbD k = true) = higher
  clear hbase hhead
  grind

theorem State.restorable_eq_none {s : State} :
    s.restorable = none ↔ spsrIndex s.cpu.cpsr.mode = none ∨ ∃ q, s.spsr = some q ∧ legalMode q.mode = false := by
  rw [← State.spsr_eq_none, State.restorable]
  cases s.spsr <;> simp [Option.filter]

/-- R545 and R542 for LDM. -/
theorem badLdm_eq_true {s : State} {sf w : Bool} {rn : RegNo} {list : BitVec 16} :
    s.badLdm sf w rn list = true ↔ LoadBlockForbidden s sf w rn list := by
  simp only [State.badLdm, State.badLdmForm, LoadBlockForbidden, BlockForbidden, Bool.or_eq_true, Bool.and_eq_true,
    beq_iff_eq, Option.isNone_iff_eq_none, State.spsr_eq_none, State.restorable_eq_none, Bool.not_eq_true']
  grind

/-- Settles O35. -/
theorem transferOperandFaults : Obligations.TransferOperandFaults := by
  refine ⟨fun s c p u w rn rd rm off imm8 hruns => ⟨fun o ho h => ?_, fun o ho h => ?_⟩,
    fun s c p u sf w rn list hruns => ⟨fun h => ?_, fun h => hruns.faults rfl (badStm_eq_true.mpr h)⟩,
    fun s c rn rd rm hruns h => ⟨hruns.faults rfl (badSwap_eq_true.mpr h), hruns.faults rfl (badSwap_eq_true.mpr h)⟩⟩
  · obtain ⟨hc, hf⟩ := armLoads_forbids ho
    exact hruns.faults hc (hf.mpr h)
  · obtain ⟨hc, hf⟩ := armStores_forbids ho
    exact hruns.faults hc (hf.mpr h)
  · refine (armCond_pass hruns.2 _).trans ?_
    rw [if_pos (badLdm_eq_true.mpr h)]
    rfl

/-! ### Loads of one register -/

theorem RegsRead.cpsr {s y : State} (h : RegsRead s y) : y.cpu.cpsr = s.cpu.cpsr := congrArg (·.cpu.cpsr) h

theorem RegsRead.setRegOf {s y : State} (h : RegsRead s y) (m : BitVec 5) (i : RegNo) (v : Word) :
    RegsRead s (y.setRegOf m i v) := by
  unfold RegsRead at h ⊢
  unfold State.setRegOf
  split
  · exact h
  · rw [h]

/-- What a read leaves, with its internal cycle and a write-back. -/
theorem RegsRead.writeBack {s v : State} {k : Nat} (h : ReadStep (s.bill k) v) (x : Access) (rn : RegNo) :
    RegsRead s ((v.bill 1).writeBack x rn) := by
  have hbill : RegsRead s (v.bill 1) := by
    unfold RegsRead
    rw [h.eq]
    rfl
  unfold State.writeBack
  split
  · exact hbill.setRegOf _ _ _
  · exact hbill

/-- The instruction ends in an advance. -/
theorem RegsRead.advance {s y : State} {ds : List (Fin 30 × Word)} (hw : Wrote s y ds) (hy : RegsRead s y) :
    CpuEffect s y.advance ds s.cpu.cpsr s.following ∧ OnlyCpuRead s y.advance ∧ SameBytes s y.advance := by
  refine ⟨⟨hw.of_gpr rfl rfl, hy.cpsr, ?_, ?_⟩, ?_, fun k => ?_⟩
  · show y.cpu.pc + codeStep y.cpu.cpsr.t = _
    rw [hy]
    rfl
  · rw [hy]
    exact ⟨rfl, rfl⟩
  · unfold OnlyCpuRead
    rw [hy]
    rfl
  · rw [hy]
    rfl

/-- The instruction ends in a branch. -/
theorem RegsRead.jump {s y : State} {ds : List (Fin 30 × Word)} (hw : Wrote s y ds) (hy : RegsRead s y) (a step : Word) :
    let t := (y.branchTo a).billRefill step
    CpuEffect s t ds s.cpu.cpsr (alignPc s.cpu.cpsr.t a) ∧ OnlyCpuRead s t ∧ SameBytes s t := by
  refine ⟨⟨hw.of_gpr rfl rfl, hy.cpsr, ?_, ?_⟩, ?_, fun k => ?_⟩
  · exact congrArg (fun p : Psr => alignPc p.t a) hy.cpsr
  · rw [hy]
    exact ⟨rfl, rfl⟩
  · unfold OnlyCpuRead
    rw [hy]
    rfl
  · rw [hy]
    rfl

/-- A read after the code access is a read after a bill. -/
theorem Reads.step_billCode {read : Word → State → Word × State} {f : LoadForm} (hread : Reads read f) (s : State)
    (a : Word) : ∃ n, ReadStep (s.bill n) (read a (s.billCode true)).2 := by
  obtain ⟨n, hstep⟩ := hread.step a (s.billCode true)
  exact ⟨s.codeCost + n, State.bill_bill s _ n ▸ hstep⟩

/-- The state of a load after its read and write-back. -/
theorem Reads.regsRead {read : Word → State → Word × State} {f : LoadForm} (hread : Reads read f) (s : State)
    (x : Access) {rn : RegNo} (hrn : x.wb = true → rn ≠ 15#4) :
    let y := ((read x.addr (s.billCode true)).2.bill 1).writeBack x rn
    Wrote s y (x.baseWrite s rn) ∧ RegsRead s y := by
  obtain ⟨n, hstep⟩ := hread.step_billCode s x.addr
  exact ⟨.writeBack x rn hstep.cpu hrn, .writeBack hstep x rn⟩

/-- A load below r15 (R510), in either state. -/
theorem State.loadReg_loads {read : Word → State → Word × State} {f : LoadForm} (hread : Reads read f) {i : Instr}
    {s : State} {x : Access} {rn rd : RegNo} (hrn : x.wb = true → rn ≠ 15#4) (hrd : rd ≠ 15#4)
    (he : exec i s = answer (.ok (s.loadReg x rn rd read))) : LoadsTo i s x rn rd f := by
  obtain ⟨hw, hy⟩ := hread.regsRead s x hrn
  unfold LoadsTo
  rw [he, State.loadReg, if_neg hrd, State.setReg_def, hy.cpsr]
  obtain ⟨heff, honly, hbytes⟩ := (hy.setRegOf s.cpu.cpsr.mode rd _).advance (hw.cons s.cpu.cpsr.mode rd _ hrd)
  exact completes_ok ⟨_, heff, honly, hbytes, hread.loads s x.addr⟩

theorem SingleForbidden.base_ne {load byte p w : Bool} {rn rd : RegNo} {off : Offset}
    (h : ¬SingleForbidden load byte p w rn rd off) (hw : p = false ∨ w = true) : rn ≠ 15#4 :=
  fun hrn => h (.inr (.inl ⟨hw, hrn⟩))

theorem HalfForbidden.base_ne {load p w : Bool} {rn rd : RegNo} {rm : Option RegNo}
    (h : ¬HalfForbidden load p w rn rd rm) (hw : p = false ∨ w = true) : rn ≠ 15#4 :=
  fun hrn => h (.inr (.inr (.inl ⟨hw, hrn⟩)))

theorem State.single_ok {s : State} {i : Instr} {p u w byte : Bool} {rn rd : RegNo} {off : Offset} {v : Word}
    {read : Word → State → Word × State} (h : ¬SingleForbidden true byte p w rn rd off) :
    s.single i (s.access p u w rn v) rn rd off byte read = .ok (s.loadReg (s.access p u w rn v) rn rd read) :=
  if_neg (mt badLoad_eq_true.mp h)

theorem State.half_ok {s : State} {i : Instr} {p u w badRm : Bool} {rn rd : RegNo} {rm : Option RegNo} {v : Word}
    {read : Word → State → Word × State} (h : ¬HalfForbidden true p w rn rd rm) (hrm : badRm = true ↔ rm = some 15#4) :
    s.half i (s.access p u w rn v) p w rn rd badRm read = .ok (s.loadReg (s.access p u w rn v) rn rd read) :=
  if_neg (mt (badHalf_eq_true hrm).mp h)

/-- Settles O31. -/
theorem loadsComplete : Obligations.LoadsComplete := by
  intro s c p u w rn rd rm off imm8 o ⟨harm, hcond⟩ hrd ho hgood
  have single : ∀ {i : Instr} {p w byte : Bool} {read f}, Reads read f → ¬SingleForbidden true byte p w rn rd off →
      exec i s = armCond c s (s.single i (s.access p u w rn (s.offset off)) rn rd off byte read) →
      LoadsTo i s (s.access p u w rn (s.offset off)) rn rd f := fun hread h he =>
    State.loadReg_loads hread (fun hw => SingleForbidden.base_ne h (State.access_wb.mp hw)) hrd
      (he.trans ((armCond_pass hcond _).trans (congrArg answer (State.single_ok h))))
  have half : ∀ {i : Instr} {v : Word} {rm : Option RegNo} {badRm : Bool} {read f}, Reads read f →
      (badRm = true ↔ rm = some 15#4) → ¬HalfForbidden true p w rn rd rm →
      exec i s = armCond c s (s.half i (s.access p u w rn v) p w rn rd badRm read) →
      LoadsTo i s (s.access p u w rn v) rn rd f := fun hread hrm h he =>
    State.loadReg_loads hread (fun hw => HalfForbidden.base_ne h (State.access_wb.mp hw)) hrd
      (he.trans ((armCond_pass hcond _).trans (congrArg answer (State.half_ok h hrm))))
  simp only [armLoads, List.mem_cons, List.not_mem_nil, or_false] at ho
  obtain rfl | rfl | rfl | rfl | rfl | rfl | rfl | rfl | rfl | rfl := ho
  · exact single .word hgood rfl
  · exact single .byte hgood rfl
  · exact single .word hgood rfl
  · exact single .byte hgood rfl
  · exact half .half (by simp) hgood rfl
  · exact half .signedByte (by simp) hgood rfl
  · exact half .signedHalf (by simp) hgood rfl
  · exact half .half (by simp) hgood rfl
  · exact half .signedByte (by simp) hgood rfl
  · exact half .signedHalf (by simp) hgood rfl

/-- Settles O32. -/
theorem loadToR15Branches : Obligations.LoadToR15Branches := by
  intro s c p u w rn off o ⟨harm, hcond⟩ ho hgood
  obtain ⟨hrn, he⟩ : (o.2.1.wb = true → rn ≠ 15#4) ∧ exec o.1 s = answer (.ok (s.loadReg o.2.1 rn 15#4 readWord)) := by
    simp only [List.mem_cons, List.not_mem_nil, or_false] at ho
    obtain rfl | rfl := ho
    all_goals exact ⟨fun hw => SingleForbidden.base_ne hgood (State.access_wb.mp hw),
      (armCond_pass hcond _).trans (congrArg answer (State.single_ok hgood))⟩
  obtain ⟨hw, hy⟩ := Reads.word.regsRead s o.2.1 hrn
  obtain ⟨heff, honly, hbytes⟩ := hy.jump hw (readWord o.2.1.addr (s.billCode true)).1 4#32
  rw [harm] at heff
  rw [he, State.loadReg, if_pos rfl]
  exact completes_ok ⟨_, heff, honly, hbytes, Reads.word.loads s o.2.1.addr⟩

end Sys2Proof.Machine
end

section
/-! ARM and Thumb stores, block transfers, swap, and the self-modification window (43_arm_loadstore.md R501-R562,
46_thumb_memory.md R675-R695, 20_memory.md R205). -/

namespace Sys2Proof.Machine

/-! ### Stores of one register -/

/-- An ARM store on operands its rule allows is the shared end. -/
theorem armStores_exec {s : State} {c : Cond} {p u w : Bool} {rn rd rm : RegNo} {off : Offset} {imm8 : BitVec 8}
    (hc : condHolds c s.cpu.cpsr = true) {o : Instr × Access × Width × Prop}
    (ho : o ∈ armStores s c p u w rn rd rm off imm8) (hgood : ¬o.2.2.2) :
    (o.2.1.wb = true → rn ≠ 15#4) ∧ exec o.1 s = answer (s.storeReg o.2.1 rn rd o.2.2.1) := by
  have single : ∀ {i : Instr} {byte p u w : Bool} {v : Word} {width : Width},
      ¬SingleForbidden false byte p w rn rd off →
      exec i s = armCond c s (s.singleStore i (s.access p u w rn v) rn rd off width) →
      ((s.access p u w rn v).wb = true → rn ≠ 15#4) ∧
        exec i s = answer (s.storeReg (s.access p u w rn v) rn rd width) := fun h he =>
    ⟨fun hw => SingleForbidden.base_ne h (State.access_wb.mp hw),
      he.trans ((armCond_pass hc _).trans (congrArg answer (if_neg (mt badStore_eq_true.mp h))))⟩
  have half : ∀ {i : Instr} {v : Word} {badRm : Bool} {rm : Option RegNo}, (badRm = true ↔ rm = some 15#4) →
      ¬HalfForbidden false p w rn rd rm →
      exec i s = armCond c s (s.halfStore i (s.access p u w rn v) p w rn rd badRm) →
      ((s.access p u w rn v).wb = true → rn ≠ 15#4) ∧
        exec i s = answer (s.storeReg (s.access p u w rn v) rn rd .half) := fun hrm h he =>
    ⟨fun hw => HalfForbidden.base_ne h (State.access_wb.mp hw),
      he.trans ((armCond_pass hc _).trans (congrArg answer (if_neg (mt (badHalf_eq_true hrm).mp h))))⟩
  simp only [armStores, List.mem_cons, List.not_mem_nil, or_false] at ho
  obtain rfl | rfl | rfl | rfl | rfl | rfl := ho
  · exact single hgood rfl
  · exact single hgood rfl
  · exact single hgood rfl
  · exact single hgood rfl
  · exact half (by simp) hgood rfl
  · exact half (by simp) hgood rfl

/-- Settles O33. -/
theorem storesComplete : Obligations.StoresComplete := by
  intro s c p u w rn rd rm off imm8 o ⟨_, hcond⟩ ho hgood hplain hheld
  obtain ⟨hrn, he⟩ := armStores_exec hcond ho hgood
  exact s.storeReg_plain o.2.1 rn rd o.2.2.1 o.1 hrn he hplain hheld

/-- A Thumb store is a store without write-back. -/
theorem State.storeLow_eq (s : State) (a : Word) (rd : LowReg) (w : Width) :
    s.storeLow a rd w = s.storeReg ⟨a, a, false⟩ 0#4 rd.up w := by
  rw [State.storeLow, State.storeReg, State.reg_of_ne _ _ _ (up_ne_pc rd), State.reg_of_ne _ _ _ (up_ne_pc rd)]
  rfl

theorem offset5_two (off : BitVec 5) : offset5 off 2 = 4#32 * off.setWidth 32 := shiftLeft_two_eq_four_mul _

theorem offset5_one (off : BitVec 5) : offset5 off 1 = 2#32 * off.setWidth 32 := by
  rw [offset5, BitVec.shiftLeft_eq_mul_twoPow, BitVec.mul_comm]
  rfl

theorem offset5_zero (off : BitVec 5) : offset5 off 0 = off.setWidth 32 := by simp [offset5]

theorem wordOffset_eq (imm8 : BitVec 8) : wordOffset imm8 = 4#32 * imm8.setWidth 32 := shiftLeft_two_eq_four_mul _

theorem thumbStores_exec {s : State} {ro rb rd : LowReg} {off : BitVec 5} {imm8 : BitVec 8} {o : Instr × Word × Width}
    (ho : o ∈ thumbStores s ro rb rd off imm8) :
    exec o.1 s = answer (s.storeReg ⟨o.2.1, o.2.1, false⟩ 0#4 rd.up o.2.2) := by
  rw [← State.storeLow_eq]
  simp only [thumbStores, ← offset5_two, ← offset5_one, ← wordOffset_eq, List.mem_cons, List.not_mem_nil,
    or_false] at ho
  rw [← offset5_zero] at ho
  obtain rfl | rfl | rfl | rfl | rfl | rfl | rfl := ho
  all_goals rfl

/-- Settles O50. -/
theorem thumbStoresComplete : Obligations.ThumbStoresComplete := by
  intro s ro rb rd off imm8 o hthumb ho hplain hheld
  have hstore := s.storeReg_plain ⟨o.2.1, o.2.1, false⟩ 0#4 rd.up o.2.2 o.1 nofun (thumbStores_exec ho) hplain hheld
  rw [s.reg_of_ne 12#32 rd.up (up_ne_pc rd), ← s.reg_of_ne 4#32 rd.up (up_ne_pc rd)] at hstore
  exact hstore

/-! ### Block stores -/

/-- The value STM stores, on a base that is not r15. -/
theorem State.stmValue_eq {s : State} {rn : RegNo} (hrn : rn ≠ 15#4) (sf : Bool) :
    s.stmValue sf rn = s.storedReg sf rn := by
  funext i
  rw [State.stmValue, State.storedReg, s.reg_of_ne 8#32 rn hrn]
  rfl

theorem StoreBlockForbidden.base_ne {s : State} {sf w : Bool} {rn : RegNo} {list : BitVec 16}
    (h : ¬StoreBlockForbidden s sf w rn list) : rn ≠ 15#4 := fun hrn => h (.inl (.inr (.inl hrn)))

/-- STM on operands its rule allows. -/
theorem exec_stm {s : State} {c : Cond} (hc : condHolds c s.cpu.cpsr = true) {p u sf w : Bool} {rn : RegNo}
    {list : BitVec 16} (hgood : ¬StoreBlockForbidden s sf w rn list) :
    exec (.stm c p u sf w rn list) s = answer (s.storeBlock p u sf w rn list) :=
  (armCond_pass hc _).trans (congrArg answer (if_neg (mt badStm_eq_true.mp hgood)))

/-- What a block store leaves, with its write-back and the advance: memory, and the base. -/
theorem StoreStep.blockEnd {s t : State} {cells : List (Nat × Byte)} {n : Nat} (h : StoreStep (s.bill n) t cells)
    (x : Access) {rn : RegNo} (hrn : x.wb = true → rn ≠ 15#4) :
    let y := (t.writeBack x rn).advance
    CpuEffect s y (x.baseWrite s rn) s.cpu.cpsr s.following ∧ OnlyCpuMem s y ∧ WroteBytes s y cells := by
  have hcpu : t.cpu = s.cpu := congrArg (·.cpu) h.rest
  obtain ⟨hcpsr, hpc, hspsrs, hrest⟩ := t.writeBack_keeps x rn
  refine ⟨⟨(Wrote.writeBack x rn hcpu hrn).of_gpr rfl rfl, ?_, ?_, ?_⟩, ?_, fun k => ?_⟩
  · exact hcpsr.trans (congrArg (·.cpsr) hcpu)
  · show (t.writeBack x rn).cpu.pc + codeStep (t.writeBack x rn).cpu.cpsr.t = _
    rw [hpc, hcpsr, hcpu]
    rfl
  · exact ⟨hspsrs.1.trans (congrArg (·.spsr) hcpu), hspsrs.2.trans (congrArg (·.spsrWritten) hcpu)⟩
  · unfold OnlyCpuMem State.advance
    rw [hrest, h.rest]
    rfl
  · show (t.writeBack x rn).mem.byte k = _
    rw [hrest]
    exact h.bytes k

/-- Settles O38. -/
theorem storeMultipleCompletes : Obligations.StoreMultipleCompletes := by
  intro s c p u sf w rn list ⟨harm, hcond⟩ hgood regs base start hplain hheld
  have hrn := StoreBlockForbidden.base_ne hgood
  obtain ⟨t, ht, hstep⟩ := State.storeWords_plain (regs.map (s.storedReg sf rn)) start false (s.billCode false)
    (by rw [List.length_map]; exact hplain) hheld
  obtain ⟨heff, honly, hbytes⟩ := hstep.blockEnd ⟨0#32, blockWriteBack u base regs.length, w⟩ (fun _ => hrn)
  rw [State.following, harm] at heff
  rw [State.blockCells_congr (s := s) rfl] at hbytes
  rw [exec_stm hcond hgood, State.storeBlock, State.stmValue_eq hrn, s.reg_of_ne 8#32 rn hrn, ht]
  exact completes_ok ⟨heff, honly, hbytes⟩

/-! ### The self-modification window -/

/-- The window of R205, byte by byte (log entry 25): an access of n bytes touches it with its first byte, or reaches its
start from below. -/
theorem Window.hit_iff {npc step a : Word} {n : Nat} (hstep : 2 ≤ step.toNat ∧ step.toNat ≤ 4) (h0 : 0 < n)
    (h4 : n ≤ 4) :
    (Window.mk npc step).hit a n = true ↔ ∃ k, k < n ∧ (a + BitVec.ofNat 32 k - npc).toNat < 2 * step.toNat := by
  have hoffset : ∀ k, k < n → (a + BitVec.ofNat 32 k - npc).toNat = ((a - npc).toNat + k) % 2 ^ 32 := fun k hk => by
    rw [← BitVec.sub_add_comm, BitVec.toNat_add, BitVec.toNat_ofNat, Nat.add_mod_mod]
  have hbelow : (npc - a).toNat = (2 ^ 32 - (a - npc).toNat) % 2 ^ 32 := by
    have hnpc := npc.isLt
    have ha := a.isLt
    simp only [BitVec.toNat_sub]
    omega
  have hlt := (a - npc).isLt
  simp only [Window.hit, Bool.or_eq_true, decide_eq_true_eq, hbelow]
  generalize (a - npc).toNat = d at hoffset hlt
  constructor
  · rintro (h | h)
    · exact ⟨0, h0, by rw [hoffset 0 h0]; omega⟩
    · exact ⟨_, h, by rw [hoffset _ h]; omega⟩
  · rintro ⟨k, hk, h⟩
    rw [hoffset k hk] at h
    omega

/-- An STM whose word k is the first in the window. -/
theorem State.storeBlock_hazard {s : State} {c : Cond} {p u sf w : Bool} {rn : RegNo} {list : BitVec 16} {k : Nat}
    (hruns : ArmRuns c s) (hgood : ¬StoreBlockForbidden s sf w rn list) (hheld : s.dma.held = []) {start : Word}
    (hstart : start = blockStart p u (s.regOf s.cpu.cpsr.mode rn) (regList list).length)
    (hk : k < (regList list).length) (hplain : s.plainStores (wordAddresses k start) = true)
    (hhit : s.storeWindow.hit (Width.word.align (start + fourTimes k)) 4 = true) :
    ∃ t, exec (.stm c p u sf w rn list) s = .fault (.selfModifyHazard s.cpu.pc (start + fourTimes k) t) ∧
      t = { s with
        cycles := t.cycles, mem := t.mem, icache := t.icache,
        fault := some (.selfModifyHazard s.cpu.pc (start + fourTimes k)) } ∧
      WroteBytes s t (s.blockCells (((regList list).take k).map (s.storedReg sf rn)) start) := by
  have hrn := StoreBlockForbidden.base_ne hgood
  obtain ⟨t, ht, hrest, hbytes⟩ := State.storeWords_hazard ((regList list).map (s.storedReg sf rn)) k start false
    (s.billCode false) (by rw [List.length_map]; exact hk) hplain hheld hhit
  refine ⟨t, ?_, hrest, ?_⟩
  · rw [exec_stm hruns.2 hgood, State.storeBlock, State.stmValue_eq hrn, s.reg_of_ne 8#32 rn hrn, ← hstart, ht]
    rfl
  · rw [List.map_take, ← State.blockCells_congr (s := s) (t := s.billCode false) rfl]
    exact hbytes

/-- Settles O34. -/
theorem storesGoThroughTheBus : Obligations.StoresGoThroughTheBus := by
  refine ⟨fun s a n h0 h4 => ?_, fun s c p u w rn rd rm off imm8 o hruns ho hgood => ?_,
    fun s ro rb rd off imm8 o hthumb ho => ?_, ?_⟩
  · have hstep : (codeStep s.cpu.cpsr.t).toNat = if s.cpu.cpsr.t then 2 else 4 := by cases s.cpu.cpsr.t <;> rfl
    rw [State.storeWindow, Window.hit_iff (by rw [hstep]; split <;> decide) h0 h4, hstep]
    rfl
  · obtain ⟨hrn, he⟩ := armStores_exec hruns.2 ho hgood
    exact s.storeReg_through o.2.1 rn rd o.2.2.1 o.1 hrn he
  · have hstore := s.storeReg_through ⟨o.2.1, o.2.1, false⟩ 0#4 rd.up o.2.2 o.1 nofun (thumbStores_exec ho)
    rw [s.reg_of_ne 12#32 rd.up (up_ne_pc rd), ← s.reg_of_ne 4#32 rd.up (up_ne_pc rd)] at hstore
    exact hstore
  · intro s c p u sf w rn list k hruns hgood hheld regs start a hk hplain hhit
    exact State.storeBlock_hazard hruns hgood hheld rfl hk hplain hhit

/-! ### Swap -/

/-- Nothing but the draws counter differs. -/
def OnlyDraws (s t : State) : Prop := t = { s with draws := t.draws }

theorem OnlyDraws.drawWidth (s : State) (w : Width) : OnlyDraws s (s.drawWidth w).2 := rfl

theorem OnlyDraws.readBios (s : State) (who : Master) (a : Word) (w : Width) : OnlyDraws s (s.readBios who a w).2 := by
  unfold State.readBios
  dsimp only
  split
  · rfl
  · split
    · exact .drawWidth s w
    · split <;> rfl

/-- A read where memory alone takes a store reaches no EEPROM port. -/
theorem OnlyDraws.readRaw {s : State} {a : Word} {w : Width} (h : s.plainStore a w = true) (n : Nat) :
    OnlyDraws (s.bill n) ((s.bill n).readRaw .cpu (w.align a) w).2 := by
  simp only [State.plainStore, Bool.and_eq_true] at h
  have hregion : (s.bill n).region (w.align a) = s.region a := region_align s w a
  have hrom : (!s.isEepromPort (w.align a) && !(slot a == 0x08 && inGpioWindow (romOffset (w.align a)))) = true →
      OnlyDraws (s.bill n) ((s.bill n).readRom (w.align a) w).2 := fun hp => by
    simp only [Bool.and_eq_true, Bool.not_eq_true', ← slot_align w a] at hp
    have heeprom : (s.bill n).isEepromPort (w.align a) = false := hp.1
    have hgpio : ¬(slot (w.align a) = 0x08 ∧ inGpioWindow (romOffset (w.align a)) = true ∧
        (s.bill n).gpio.readable = true) := fun hg => by simp [hg.1, hg.2.1] at hp
    rw [State.readRom, heeprom, if_neg Bool.false_ne_true, if_neg hgpio]
    rfl
  rw [State.readRaw, hregion]
  cases hr : s.region a <;> rw [hr] at h <;> dsimp only at h ⊢
  case bios => exact .readBios _ _ _ _
  case io => exact absurd h.2 Bool.false_ne_true
  case rom0 | rom1 | rom2 => exact hrom h.2
  case unmapped => exact .drawWidth _ _
  all_goals rfl

theorem OnlyDraws.memRead {s : State} {a : Word} {w : Width} (h : s.plainStore a w = true) (seq : Bool) :
    ∃ n, OnlyDraws (s.bill n) ((s.billCode true).memRead a w seq).2 := by
  refine ⟨s.codeCost + (s.billCode true).cost a w seq, ?_⟩
  have hread := OnlyDraws.readRaw h (s.codeCost + (s.billCode true).cost a w seq)
  rw [← State.bill_bill] at hread ⊢
  exact hread

/-- Settles O36. -/
theorem swapCompletes : Obligations.SwapCompletes := by
  intro s c rn rd rm o ⟨harm, hcond⟩ ho hrd hrm hrn hnd hnm a hplain hheld
  have hgood : ¬badSwap rn rd rm = true := by
    rw [badSwap_eq_true]
    simp [hrd, hrm, hrn, hnd, hnm]
  obtain ⟨read, hread, hreads, he⟩ : ∃ read, Reads read o.2.2 ∧
      (∀ t, t.memRead a o.2.1 false = read a t) ∧ exec o.1 s = armCond c s (s.swap o.1 rn rd rm o.2.1) := by
    simp only [List.mem_cons, List.not_mem_nil, or_false] at ho
    obtain rfl | rfl := ho
    · exact ⟨readWord, .word, fun _ => rfl, rfl⟩
    · exact ⟨readByte, .byte, fun _ => rfl, rfl⟩
  obtain ⟨n, hdraws⟩ := OnlyDraws.memRead hplain false
  have hloads := hread.loads s a
  rw [← hreads] at hloads
  rw [he, armCond_pass hcond, State.swap, if_neg hgood, s.reg_of_ne 8#32 rn hrn, s.reg_of_ne 8#32 rm hrm]
  generalize (s.billCode true).memRead a o.2.1 false = r at hdraws hloads
  obtain ⟨v, r⟩ := r
  replace hdraws : r = { s.bill n with draws := r.draws } := hdraws
  have hplain' : r.plainStore a o.2.1 = true := by
    rw [hdraws]
    exact hplain
  obtain ⟨t, ht, hstore, -⟩ := r.memWrite_plain a o.2.1 (s.regOf s.cpu.cpsr.mode rm) false hplain'
    (by rw [hdraws]; exact hheld)
  have hcpu : t.cpu = s.cpu := (congrArg (·.cpu) hstore.rest).trans (congrArg (·.cpu) hdraws)
  have hcells : r.storedCells a o.2.1 (s.regOf s.cpu.cpsr.mode rm) =
      s.storedCells a o.2.1 (s.regOf s.cpu.cpsr.mode rm) := by
    rw [hdraws]
    rfl
  have hmem : r.mem = s.mem := congrArg (·.mem) hdraws
  have hw : Wrote s ((t.bill 1).setRegOf s.cpu.cpsr.mode rd v) [(s.here rd, v)] :=
    (Wrote.nil s (t.bill 1) (congrArg (·.gpr) hcpu) (congrArg (·.written) hcpu)).cons _ rd v hrd
  show Completes (answer (r.memWrite _ _ _ _ >>= _)) _
  rw [ht]
  refine completes_ok ⟨v, ⟨hw.of_gpr ?_ ?_, ?_, ?_, ?_⟩, ?_, fun k => ?_, hloads⟩
  all_goals simp only [State.setReg_def, State.bill_cpu, hcpu]
  · rfl
  · rfl
  · simp [State.advance, hcpu]
  · simp [State.advance, hcpu, harm, codeStep]
  · exact ⟨by simp [State.advance, hcpu], by simp [State.advance, hcpu]⟩
  · simp only [State.setRegOf, if_neg hrd, State.bill, State.advance, State.setPc]
    rw [hstore.rest, hdraws]
    rfl
  · have hbytes := hstore.bytes k
    rw [hcells, hmem] at hbytes
    simpa [State.advance] using hbytes

/-! ### Block loads -/

/-- A status that can be restored is the SPSR (R365). -/
theorem State.restorable_eq_spsr {s : State} {q : Psr} (h : s.restorable = some q) : s.spsr = some q :=
  (Option.filter_eq_some_iff.mp h).1

theorem LoadBlockForbidden.base_ne {s : State} {sf w : Bool} {rn : RegNo} {list : BitVec 16}
    (h : ¬LoadBlockForbidden s sf w rn list) : rn ≠ 15#4 := fun hrn => h (.inl (.inr (.inl hrn)))

/-- Settles O37. -/
theorem loadMultipleCompletes : Obligations.LoadMultipleCompletes := by
  intro s c p u sf w rn list ⟨harm, hcond⟩ hgood regs base start bank
  have hrn := LoadBlockForbidden.base_ne hgood
  have hbad := mt badLdm_eq_true.mp hgood
  have hrestore : list.getLsbD 15 = true → sf = true → ∃ q, s.restorable = some q ∧ s.spsr = some q := fun hl hs => by
    obtain ⟨q, hq⟩ := Option.ne_none_iff_exists'.mp (fun h : s.restorable = none => hbad (by simp [State.badLdm, hl, hs, h]))
    exact ⟨q, hq, State.restorable_eq_spsr hq⟩
  have he : exec (.ldm c p u sf w rn list) s = answer (.ok (s.loadBlock p u sf w rn list)) :=
    (armCond_pass hcond _).trans (congrArg answer (if_neg hbad))
  obtain ⟨hlen, hat, k, hstep⟩ := (s.billCode true).loadWords_reads regs.length start false
  have hreads := (s.billCode true).loadWords_readsWords regs.length start false
  rw [State.billCode, State.billAccess, State.bill_bill] at hstep
  obtain ⟨hw, hy⟩ := s.blockRegs _ _ hstep w rn hrn (blockWriteBack u base regs.length) bank regs (regList_nodup list) _
    hlen _ rfl
  obtain ⟨hw', hspsrs, honly, hbytes, hend⟩ := s.loadBlock_end _ _ sf (list.getLsbD 15) _ harm hrestore hw hy _ rfl
  rw [he, State.loadBlock, s.reg_of_ne 8#32 rn hrn]
  exact completes_ok ⟨_, hlen, ⟨hreads, hat⟩, hw', hspsrs, honly, hbytes, hend⟩

end Sys2Proof.Machine
end

section
/-! Accesses outside RAM (20_memory.md R162-R193) and the exchanging branches (R575, R735). -/

namespace Sys2Proof.Machine

/-! ### Alignment and rotation -/

theorem Width.align_mod (w : Width) (a : Word) : (w.align a).toNat % w.bytes = 0 := by
  cases w
  · exact Nat.mod_one _
  · exact beq_iff_eq.mp (pcAligned_alignPc true a)
  · exact align_word_mod a

theorem Width.align_align (w : Width) (a : Word) : w.align (w.align a) = w.align a :=
  Width.align_of_aligned _ _ (w.align_mod a)

/-- The rotation of a read (R163) is by the bytes the address lies past its unit. -/
theorem rotateRead_eq (a : Word) (w : Width) (v : Word) : rotateRead a w v = rotateBytes v (a.toNat % w.bytes) := by
  cases w
  · exact (congrArg (rotateBytes v) (Nat.mod_one _)).trans (rotateBytes_zero v) |>.symm
  · obtain h | h := Nat.mod_two_eq_zero_or_one a.toNat
    · simp only [rotateRead, lsb_eq_odd, Width.bytes, h, rotateBytes_zero, Nat.zero_ne_one, decide_false,
        Bool.false_eq_true, if_false]
    · simp only [rotateRead, lsb_eq_odd, Width.bytes, h, decide_true, if_true]
      exact ror_bytes v 1 (by decide)
  · exact ror_bytes v _ (Nat.mod_lt _ (by decide))

/-- An aligned read is the region's read. -/
theorem State.memRead_aligned {s : State} {a : Word} {w : Width} (h : a.toNat % w.bytes = 0) (seq : Bool) :
    s.memRead a w seq = (s.billAccess a w seq).readRaw .cpu a w := by
  rw [State.memRead, rotateRead_eq, h, rotateBytes_zero, Width.align_of_aligned a w h]

/-- A misaligned read is the aligned one, rotated (R162, R163, R170). -/
theorem State.memRead_eq_align (s : State) (a : Word) (w : Width) (seq : Bool) :
    s.memRead a w seq =
      (rotateBytes (s.memRead (w.align a) w seq).1 (a.toNat % w.bytes), (s.memRead (w.align a) w seq).2) := by
  have hbill : s.billAccess (w.align a) w seq = s.billAccess a w seq := by
    simp only [State.billAccess, State.cost, region_align]
  rw [State.memRead_aligned (w.align_mod a), hbill, State.memRead, rotateRead_eq]

/-! ### Values outside RAM -/

theorem sentinel_eq_pastEnd (w : Width) : sentinel w = pastEnd w := by cases w <;> rfl

theorem read_eq_lanes (m : Memory) (k : Nat) (w : Width) :
    m.read k w = lanes (m.byte k) (m.byte (k + 1)) (m.byte (k + 2)) (m.byte (k + 3)) w := by
  cases w <;> rfl

theorem replicateByte_eq_lanes (b : Byte) (w : Width) : replicateByte b w = lanes b b b b w := by cases w <;> rfl

/-- The low bits of a word (R24). -/
theorem Width.trim_eq (w : Width) (v : Word) : w.trim v = BitVec.ofNat 32 (v.toNat % 2 ^ (8 * w.bytes)) := by
  have hmask : ∀ n, n ≤ 32 → (v &&& BitVec.ofNat 32 (2 ^ n - 1)).toNat = v.toNat % 2 ^ n % 2 ^ 32 := fun n hn => by
    have hle : 2 ^ n ≤ 2 ^ 32 := Nat.pow_le_pow_right (by decide) hn
    have hpos := Nat.two_pow_pos n
    have hlt := Nat.mod_lt v.toNat hpos
    rw [BitVec.toNat_and, BitVec.toNat_ofNat, Nat.mod_eq_of_lt (show 2 ^ n - 1 < 2 ^ 32 by omega),
      Nat.and_two_pow_sub_one_eq_mod, Nat.mod_eq_of_lt (show v.toNat % 2 ^ n < 2 ^ 32 by omega)]
  apply BitVec.eq_of_toNat_eq
  rw [BitVec.toNat_ofNat]
  cases w
  · exact hmask 8 (by decide)
  · exact hmask 16 (by decide)
  · exact ((Nat.mod_mod _ _).trans (Nat.mod_eq_of_lt v.isLt)).symm

/-- A data read of the BIOS (R172, R185, log entry 15). -/
theorem State.readBios_cpu (s : State) (a : Word) (w : Width) :
    (s.readBios .cpu a w).1 =
      if s.biosLen ≤ slotOffset a ∨ (w = .word ∧ s.biosLen < slotOffset a + 4) then pastEnd w
      else if s.cpu.pc.extractLsb' 24 8 ≠ 0#8 then
        BitVec.ofNat 32 ((Config.draw s.draws).toNat % 2 ^ (8 * w.bytes))
      else if s.biosLen < slotOffset a + w.bytes then pastEnd w
      else s.mem.read (slotOffset a) w := by
  have hpast : (w = .word ∧ slotOffset a + w.bytes > s.biosLen) ↔ (w = .word ∧ s.biosLen < slotOffset a + 4) :=
    and_congr_right fun h => by subst h; exact Iff.rfl
  have hprotected : s.biosProtected .cpu = true ↔ s.cpu.pc.extractLsb' 24 8 ≠ 0#8 := by
    simp [State.biosProtected, slot, ← BitVec.toNat_inj]
  simp only [State.readBios, hpast, hprotected, apply_ite Prod.fst, sentinel_eq_pastEnd, State.drawWidth, Width.trim_eq]
  rfl

/-- Settles O39. -/
theorem accessesOutsideRam : Obligations.AccessesOutsideRam := by
  refine ⟨fun s a w seq haligned => ?_, State.memRead_eq_align⟩
  rw [State.memRead_aligned haligned]
  intro v bios rom image free
  refine ⟨fun h => ?_, fun h hport hgpio => ?_, fun h => ?_, fun h hbackend => ?_, fun x h hwide hhit => ?_⟩
  · have hr : (s.billAccess a w seq).region a = .bios := h
    simp only [v, State.readRaw, hr, State.readBios_cpu, read_eq_lanes]
    rfl
  · have hrom : v = (s.billAccess a w seq).readRomImage a w := by
      refine Eq.trans ?_ (congrArg Prod.fst (State.readRom_image (s := s.billAccess a w seq) hport hgpio w))
      simp only [List.mem_cons, List.not_mem_nil, or_false] at h
      obtain h | h | h := h <;> simp only [v, State.readRaw, show (s.billAccess a w seq).region a = _ from h]
    rw [hrom, State.readRomImage, sentinel_eq_pastEnd, read_eq_lanes]
    rfl
  · simp only [v, State.readRaw, show (s.billAccess a w seq).region a = _ from h, State.drawWidth, Width.trim_eq]
    rfl
  · have hb : (s.billAccess a w seq).save.backend = .sram := hbackend
    simp only [v, State.readRaw, show (s.billAccess a w seq).region a = _ from h, State.readSave, hb,
      replicateByte_eq_lanes]
    rfl
  · have hregion : ((s.billAccess a w seq).invalidatePages a).region a = .save := h
    rw [State.memWrite, State.busWrite, Width.align_of_aligned a w haligned, hhit, if_neg Bool.false_ne_true,
      State.writeRaw, hregion]
    cases w
    · exact absurd rfl hwide
    all_goals rfl

/-! ### BX -/

/-- The mask of a halfword address has every bit but the lowest. -/
theorem halfMask_bit : ∀ i : Fin 32, i ≠ 0 → (0xFFFFFFFE#32)[i.val] = true := by decide

/-- An odd address, aligned for Thumb state. -/
theorem alignPc_of_odd {v : Word} (h : v.toNat % 2 = 1) : alignPc true v = v - 1#32 := by
  have hshift : alignPc true v = v >>> 1 <<< 1 := by
    ext i hi
    obtain _ | i := i
    · simp [alignPc]
    · have := halfMask_bit ⟨i + 1, hi⟩ (by simp [Fin.ext_iff])
      simp_all [alignPc, Nat.add_comm, BitVec.getLsbD_eq_getElem]
  rw [hshift]
  apply BitVec.eq_of_toNat_eq
  rw [BitVec.toNat_shiftLeft, BitVec.toNat_ushiftRight, BitVec.toNat_sub, Nat.shiftLeft_eq, Nat.shiftRight_eq_div_pow,
    BitVec.toNat_ofNat]
  have := v.isLt
  omega

/-- An exchange that goes on in a state: the status, the branch, the refill. -/
theorem Effect.exchange {s : State} {thumb : Bool} {target pc : Word} (h : alignPc thumb target = pc) :
    Completes (answer (.ok ((((s.billCode true).setCpsr { s.cpu.cpsr with t := thumb }).branchTo target).billRefill
      (codeStep thumb)))) fun t =>
      Effect s t [] { s.cpu.cpsr with t := thumb } pc ∧ t.cycles = s.cycles + s.codeCost + t.refillCost :=
  completes_ok ⟨h ▸ Effect.jump s s.codeCost { s.cpu.cpsr with t := thumb } target (codeStep thumb),
    State.billRefill_cycles _ rfl⟩

/-- Settles O41. -/
theorem branchExchanges : Obligations.BranchExchanges := by
  intro s c rm o ho
  have he : exec o.1 s = answer (s.exchange o.1 o.2) := by
    obtain ⟨⟨_, hc⟩, rfl⟩ | ⟨_, rfl⟩ := ho
    · exact armCond_pass hc _
    · rfl
  have hbit1 : o.2.toNat % 2 = 0 → (o.2.getLsbD 1 = true ↔ o.2.toNat % 4 = 2) := fun h => by
    rw [getLsbD_eq_div, decide_eq_true_eq]
    omega
  rw [FaultsUnpredictable, he, State.exchange, lsb_eq_odd]
  refine ⟨fun h => ?_, fun h => ?_, fun h => ?_⟩
  · rw [if_pos (decide_eq_true h)]
    exact Effect.exchange (alignPc_of_odd h)
  · rw [if_neg (by rw [decide_eq_true_eq]; omega), if_neg (by rw [hbit1 (by omega)]; omega)]
    exact Effect.exchange (alignPc_of_aligned (beq_iff_eq.mpr h))
  · rw [if_neg (by rw [decide_eq_true_eq]; omega), if_pos ((hbit1 (by omega)).mpr h)]
    rfl

end Sys2Proof.Machine
end

section
/-! Thumb instructions (45_thumb_alu.md, 46_thumb_memory.md, 47_thumb_branch.md) and the illegal rows (30_encoding.md
R280). -/

namespace Sys2Proof.Machine

/-- Settles O43. -/
theorem illegalRowsStop : Obligations.IllegalRowsStop := by
  intro i s h
  unfold Instr.illegalRow at h
  split at h
  case h_18 => cases h
  all_goals rfl

/-! ### The shared ends -/

theorem State.billCode_eq (s : State) : s.billCode true = s.bill s.codeCost := rfl

/-- The end of an operation on a low register. -/
theorem State.finishLow_completes {s : State} (hthumb : s.cpu.cpsr.t = true) (rd : LowReg) (v : Word) {p : Psr}
    (hp : p.t = s.cpu.cpsr.t) (n : Nat) :
    Completes (.next (s.finishLow rd v p n)) fun t =>
      Effect s t [(s.here rd.up, v)] p (s.cpu.pc + 2#32) ∧ t.cycles = s.cycles + s.codeCost + n := by
  have he : s.finishLow rd v p n =
      (((s.bill (s.codeCost + n)).setReg rd.up v).setCpsr p).setPc (s.cpu.pc + 2#32) := by
    simp [State.finishLow, State.advance, hp, hthumb, codeStep, State.billCode_eq, State.bill_bill]
  rw [he]
  exact completes_next ⟨Effect.write s _ rd.up v p _ (up_ne_pc rd), by simp [Nat.add_assoc]⟩

/-- The end of a comparison. -/
theorem State.finishTest_completes {s : State} (hthumb : s.cpu.cpsr.t = true) {p : Psr} (hp : p.t = s.cpu.cpsr.t) :
    Completes (.next (s.finishTest p)) fun t =>
      Effect s t [] p (s.cpu.pc + 2#32) ∧ t.cycles = s.cycles + s.codeCost := by
  have he : s.finishTest p = ((s.bill s.codeCost).setCpsr p).setPc (s.cpu.pc + 2#32) := by
    simp [State.finishTest, State.advance, hp, hthumb, codeStep, State.billCode_eq]
  rw [he]
  exact completes_next ⟨Effect.status s s.codeCost p _, rfl⟩

/-! ### Arithmetic and logic -/

/-- Settles O44. -/
theorem thumbShiftsComplete : Obligations.ThumbShiftsComplete := by
  intro s off rs rd o hthumb ho
  have he : exec o.1 s = .next (s.finishShift rd o.2.1 o.2.2) := by
    simp only [thumbShifts, List.mem_cons, List.not_mem_nil, or_false] at ho
    obtain rfl | rfl | rfl | rfl | rfl | rfl | rfl := ho
    all_goals rfl
  rw [he, State.finishShift, setLogical_signZero]
  exact State.finishLow_completes hthumb rd o.2.1.val (by rfl) o.2.2

/-- An addition or subtraction runs the shared end with an output of its result and its flags. -/
theorem thumbArithmetic_exec {s : State} {rn rs rd : LowReg} {imm3 : BitVec 3} {imm8 : BitVec 8}
    {o : Instr × LowReg × Word × Psr} (ho : o ∈ thumbArithmetic s rn rs rd imm3 imm8) :
    ∃ out, exec o.1 s = .next (s.finishAdd o.2.1 out) ∧ out.res = o.2.2.1 ∧ s.cpu.cpsr.setArith out = o.2.2.2 := by
  have add : ∀ {i : Instr} {r : LowReg} (x y : Word), exec i s = .next (s.finishAdd r (addWithCarry x y false)) →
      ∃ out, exec i s = .next (s.finishAdd r out) ∧ out.res = x + y ∧
        s.cpu.cpsr.setArith out = sumFlags s.cpu.cpsr x y false := fun x y he =>
    ⟨_, he, (addWithCarry_res x y false).trans (BitVec.add_zero _), setArith_sum _ x y false⟩
  have sub : ∀ {i : Instr} {r : LowReg} (x y : Word), exec i s = .next (s.finishAdd r (subtract x y)) →
      ∃ out, exec i s = .next (s.finishAdd r out) ∧ out.res = x - y ∧
        s.cpu.cpsr.setArith out = diffFlags s.cpu.cpsr x y false := fun x y he =>
    ⟨_, he, subtract_res x y, setArith_sub _ x y⟩
  simp only [thumbArithmetic, List.mem_cons, List.not_mem_nil, or_false] at ho
  obtain rfl | rfl | rfl | rfl | rfl | rfl | rfl | rfl | rfl := ho
  · exact add _ _ rfl
  · exact sub _ _ rfl
  · exact add _ _ rfl
  · exact sub _ _ rfl
  · exact add _ _ rfl
  · exact sub _ _ rfl
  · exact ⟨_, rfl, addWithCarry_res _ _ _, setArith_sum _ _ _ _⟩
  · exact ⟨_, rfl, subtractCarry_res _ _ _, setArith_diff _ _ _ _⟩
  · exact sub _ _ rfl

/-- Settles O45. -/
theorem thumbArithmeticCompletes : Obligations.ThumbArithmeticCompletes := by
  intro s rn rs rd imm3 imm8 o hthumb ho
  obtain ⟨out, he, hres, hflags⟩ := thumbArithmetic_exec ho
  rw [he, State.finishAdd, ← hres, ← hflags]
  exact State.finishLow_completes hthumb o.2.1 out.res (by rfl) 0

/-- Settles O46. -/
theorem thumbLogicalAndCompareComplete : Obligations.ThumbLogicalAndCompareComplete := by
  intro s rs rd imm8 hthumb
  refine ⟨fun o ho => ?_, fun o ho => ?_⟩
  · have he : exec o.1 s = .next (s.finishLogical o.2.1 o.2.2) := by
      simp only [thumbLogical, List.mem_cons, List.not_mem_nil, or_false] at ho
      obtain rfl | rfl | rfl | rfl | rfl | rfl := ho
      all_goals rfl
    rw [he, State.finishLogical, setNZ_signZero]
    exact State.finishLow_completes hthumb o.2.1 o.2.2 (by rfl) 0
  · obtain ⟨he, hp⟩ : exec o.1 s = .next (s.finishTest o.2) ∧ o.2.t = s.cpu.cpsr.t := by
      simp only [thumbCompare, ← setArith_sub, ← setArith_sum, ← setNZ_signZero, List.mem_cons, List.not_mem_nil,
        or_false] at ho
      obtain rfl | rfl | rfl | rfl := ho
      all_goals exact ⟨rfl, rfl⟩
    rw [he]
    exact State.finishTest_completes hthumb hp

/-! ### High registers -/

theorem getLsbD_three : ∀ r : RegNo, r.getLsbD 3 = decide (8 ≤ r.toNat) := by decide

theorem bothLow_eq_true {rs rd : RegNo} : bothLow rs rd = true ↔ rs.toNat < 8 ∧ rd.toNat < 8 := by
  simp only [bothLow, getLsbD_three, Bool.and_eq_true, Bool.not_eq_true', decide_eq_false_iff_not, Nat.not_le]

/-- The end of ADD and MOV (R640, R642). -/
theorem State.finishHi_completes {s : State} (hthumb : s.cpu.cpsr.t = true) (rd : RegNo) (v : Word) :
    (rd ≠ 15#4 → Completes (answer (.ok (s.finishHi rd v))) fun t =>
      Effect s t [(s.here rd, v)] s.cpu.cpsr (s.cpu.pc + 2#32) ∧ t.cycles = s.cycles + s.codeCost) ∧
    (rd = 15#4 → Completes (answer (.ok (s.finishHi rd v))) fun t =>
      Effect s t [] s.cpu.cpsr (v &&& 0xFFFFFFFE#32) ∧ t.cycles = s.cycles + s.codeCost + t.refillCost) := by
  refine ⟨fun hrd => ?_, fun hrd => ?_⟩
  · rw [State.finishHi, if_neg hrd]
    exact completes_ok (State.writeThumbReg_effect hthumb hrd v)
  · have hjump := (Effect.refl s).branch v
    rw [hthumb] at hjump
    rw [State.finishHi, if_pos hrd]
    exact completes_ok ⟨hjump, s.branch_cycles v⟩

/-- Settles O47. -/
theorem thumbHighRegistersComplete : Obligations.ThumbHighRegistersComplete := by
  intro s rs rd hthumb x y
  refine ⟨fun hs hd i hi => ?_, fun hhigh => ?_⟩
  · have hlow := bothLow_eq_true.mpr ⟨hs, hd⟩
    simp only [List.mem_cons, List.not_mem_nil, or_false] at hi
    obtain rfl | rfl | rfl := hi
    all_goals exact faultsUnpredictable_of_forbids rfl hlow
  · have hgood : ¬bothLow rs rd = true := fun h => by
      have := bothLow_eq_true.mp h
      omega
    refine ⟨fun o ho => ?_, ?_⟩
    · have he : exec o.1 s = answer (.ok (s.finishHi rd o.2)) := by
        simp only [List.mem_cons, List.not_mem_nil, or_false] at ho
        obtain rfl | rfl := ho
        all_goals exact congrArg answer (if_neg hgood)
      rw [he]
      exact State.finishHi_completes hthumb rd o.2
    · have he : exec (.tCmpHi rs rd) s = .next (s.finishTest (s.cpu.cpsr.setArith (subtract x y))) :=
        congrArg answer (if_neg hgood)
      rw [he, setArith_sub]
      exact State.finishTest_completes hthumb rfl

/-! ### Loads of one register -/

/-- A Thumb load is a load without write-back. -/
theorem State.loadLow_eq (s : State) (a : Word) (rd : LowReg) (read : Word → State → Word × State) :
    s.loadLow a rd read = s.loadReg ⟨a, a, false⟩ 0#4 rd.up read :=
  (if_neg (up_ne_pc rd)).symm

/-- Settles O49. -/
theorem thumbLoadsComplete : Obligations.ThumbLoadsComplete := by
  intro s ro rb rd off imm8 o _ ho
  obtain ⟨read, hread, he⟩ : ∃ read, Reads read o.2.2 ∧ exec o.1 s = .next (s.loadLow o.2.1 rd read) := by
    simp only [thumbLoads, ← offset5_two, ← offset5_one, ← wordOffset_eq, List.mem_cons, List.not_mem_nil,
      or_false] at ho
    rw [← offset5_zero] at ho
    obtain rfl | rfl | rfl | rfl | rfl | rfl | rfl | rfl | rfl | rfl := ho
    · exact ⟨_, .word, rfl⟩
    · exact ⟨_, .word, rfl⟩
    · exact ⟨_, .byte, rfl⟩
    · exact ⟨_, .half, rfl⟩
    · exact ⟨_, .signedByte, rfl⟩
    · exact ⟨_, .signedHalf, rfl⟩
    · exact ⟨_, .word, rfl⟩
    · exact ⟨_, .byte, rfl⟩
    · exact ⟨_, .half, rfl⟩
    · exact ⟨_, .word, rfl⟩
  rw [State.loadLow_eq] at he
  exact State.loadReg_loads hread nofun (up_ne_pc rd) he

/-! ### Blocks -/

theorem mem_lowList {list : BitVec 8} {i : RegNo} (h : i ∈ lowList list) : list.getLsbD i.toNat = true := by
  have hbit := (mem_regList _ i).mp h
  rw [BitVec.getLsbD_setWidth, Bool.and_eq_true] at hbit
  exact hbit.2

theorem ne_pc_of_mem_lowList {list : BitVec 8} {i : RegNo} (h : i ∈ lowList list) : i ≠ 15#4 := by
  rintro rfl
  exact absurd (mem_lowList h) (by simp)

theorem lowList_ne_nil {list : BitVec 8} (h : list ≠ 0#8) : lowList list ≠ [] := by
  intro hnil
  refine h (BitVec.eq_of_getLsbD_eq fun k hk => ?_)
  have hmem := (not_congr (mem_regList (list.setWidth 16) (BitVec.ofNat 4 k))).mp
    (by rw [show regList _ = [] from hnil]; exact List.not_mem_nil)
  rw [BitVec.toNat_ofNat, Nat.mod_eq_of_lt (by omega), BitVec.getLsbD_setWidth] at hmem
  simpa [show k < 16 by omega] using hmem

theorem stackCount_ne_zero {r : Bool} {list : BitVec 8} (h : list ≠ 0#8 ∨ r = true) : stackCount r list ≠ 0 := by
  obtain h | rfl := h
  · have := List.length_pos_iff.mpr (lowList_ne_nil h)
    unfold stackCount
    omega
  · exact Nat.succ_ne_zero _

/-- The operands of a list of low registers. -/
theorem State.map_reg_lowList (s : State) (list : BitVec 8) :
    (lowList list).map (s.reg 4#32) = (lowList list).map (s.regOf s.cpu.cpsr.mode) :=
  List.map_congr_left fun i hi => s.reg_of_ne 4#32 i (ne_pc_of_mem_lowList hi)

/-- The words PUSH stores. -/
theorem State.map_reg_pushList (s : State) (r : Bool) (list : BitVec 8) :
    (pushList r list).map (s.reg 4#32) =
      (lowList list).map (s.regOf s.cpu.cpsr.mode) ++ if r then [s.regOf s.cpu.cpsr.mode 14#4] else [] := by
  rw [pushList, List.map_append, State.map_reg_lowList]
  cases r <;> rfl

/-- The operands R705 forbids. -/
theorem badStmia_eq_true {rb : LowReg} {list : BitVec 8} :
    badStmia rb list = true ↔
      list = 0#8 ∨ (list.getLsbD rb.toNat = true ∧ ∃ k, k < rb.toNat ∧ list.getLsbD k = true) := by
  have hup : rb.up.toNat = rb.toNat := by simp [LowReg.up, Nat.mod_eq_of_lt (show rb.toNat < 16 by omega)]
  have hbit : ∀ k ≤ rb.toNat, (list.setWidth 16).getLsbD k = list.getLsbD k := fun k hk => by
    have := rb.isLt
    simp [show k < 16 by omega]
  have hhead : list.getLsbD rb.toNat = true →
      ((lowList list).head? ≠ some rb.up ↔ ∃ k, k < rb.toNat ∧ list.getLsbD k = true) := fun hl => by
    rw [lowList, Ne, regList_head?_eq_some, hup, hbit _ (Nat.le_refl _)]
    simp only [hl, true_and, Classical.not_forall, Bool.not_eq_false, exists_prop]
    exact exists_congr fun k => and_congr_right fun hk => by rw [hbit k (Nat.le_of_lt hk)]
  simp only [badStmia, Bool.or_eq_true, Bool.and_eq_true, beq_iff_eq, bne_iff_ne]
  exact or_congr_right (and_congr_right hhead)

/-- A block store of low registers: memory, the base, the advance. -/
theorem State.storeLowBlock_completes {s : State} (hthumb : s.cpu.cpsr.t = true) {vs : List Word} {start base : Word}
    {rn : RegNo} (hrn : rn ≠ 15#4) (hplain : s.plainStores (wordAddresses vs.length start) = true)
    (hheld : s.dma.held = []) :
    Completes (answer (do
      let t ← (s.billCode false).storeWords vs start false
      return (t.setReg rn base).advance)) fun t =>
      CpuEffect s t [(s.here rn, base)] s.cpu.cpsr (s.cpu.pc + 2#32) ∧ OnlyCpuMem s t ∧
      WroteBytes s t (s.blockCells vs start) := by
  obtain ⟨t, ht, hstep⟩ := State.storeWords_plain vs start false (s.billCode false) hplain hheld
  obtain ⟨heff, honly, hbytes⟩ := hstep.blockEnd ⟨base, base, true⟩ (fun _ => hrn)
  rw [State.following, hthumb] at heff
  rw [State.blockCells_congr (s := s) rfl] at hbytes
  rw [ht]
  exact completes_ok ⟨heff, honly, hbytes⟩

/-- Settles O51. -/
theorem thumbBlockStoresComplete : Obligations.ThumbBlockStoresComplete := by
  intro s r list rb hthumb low pushed start
  have hlen : stackCount r list = pushed.length := by
    rw [stackCount, List.length_append, List.length_map]
    cases r <;> rfl
  refine ⟨fun hl hr => ?_, fun hne hplain hheld => ?_, fun hbad => ?_, fun hl hlow hplain hheld => ?_⟩
  · subst hl hr
    exact faultsUnpredictable_of_forbids rfl rfl
  · have he : exec (.tPush r list) s = answer (s.push r list) :=
      congrArg answer (if_neg (stackCount_ne_zero hne))
    rw [he, State.push, State.map_reg_pushList, hlen]
    exact State.storeLowBlock_completes hthumb (by decide) hplain hheld
  · exact faultsUnpredictable_of_forbids rfl (badStmia_eq_true.mpr hbad)
  · have hgood : ¬badStmia rb list = true := fun h => by
      obtain h | ⟨hb, k, hk, hkb⟩ := badStmia_eq_true.mp h
      · exact hl h
      · exact absurd ((hlow hb k hk).symm.trans hkb) Bool.false_ne_true
    have he : exec (.tStmia rb list) s = answer (s.stmia rb list) := congrArg answer (if_neg hgood)
    rw [he, State.stmia, State.map_reg_lowList, ← List.length_map (as := lowList list) (s.regOf s.cpu.cpsr.mode)]
    exact State.storeLowBlock_completes hthumb (up_ne_pc rb) hplain hheld

/-- Only the values that have a register are paired. -/
theorem zip_take_length (l : List RegNo) (vs : List Word) : l.zip (vs.take l.length) = l.zip vs := by
  induction l generalizing vs with
  | nil => rfl
  | cons i l ih => cases vs <;> simp [ih]

/-- A block load of low registers, before the program counter moves: the words, the base, the registers. -/
theorem State.loadLowBlock {s : State} {list : BitVec 8} {n : Nat} (hn : (lowList list).length ≤ n) (start : Word)
    (w : Bool) {rn : RegNo} (hrn : rn ≠ 15#4) (base : Word) :
    let l := (s.billCode true).loadWords n start false
    let y := ((l.2.bill 1).writeBack ⟨base, base, w⟩ rn).assignRegs s.cpu.cpsr.mode ((lowList list).zip l.1)
    l.1.length = n ∧ s.loadsWords start l.1 ∧
      Wrote s y (loadedRegs s.cpu.cpsr.mode (lowList list) l.1 ++ if w then [(s.here rn, base)] else []) ∧
      RegsRead s y := by
  intro l y
  obtain ⟨hlen, hat, k, hstep⟩ := (s.billCode true).loadWords_reads n start false
  rw [State.billCode, State.billAccess, State.bill_bill] at hstep
  have htake : (l.1.take (lowList list).length).length = (lowList list).length := by
    rw [List.length_take, hlen]
    omega
  obtain ⟨hw, hy⟩ := s.blockRegs _ _ hstep w rn hrn base s.cpu.cpsr.mode (lowList list) (regList_nodup _) _ htake _ rfl
  rw [loadedRegs, zip_take_length] at hw
  rw [zip_take_length] at hy
  exact ⟨hlen, ⟨(s.billCode true).loadWords_readsWords n start false, hat⟩, hw, hy⟩

/-- Settles O52. -/
theorem thumbBlockLoadsComplete : Obligations.ThumbBlockLoadsComplete := by
  intro s r list rb hthumb regs m sp
  refine ⟨fun hl => ?_, fun hne => ?_, fun hl => ?_⟩
  · subst hl
    exact ⟨faultsUnpredictable_of_forbids rfl rfl, fun hr => hr ▸ faultsUnpredictable_of_forbids rfl rfl⟩
  · have he : exec (.tPop r list) s = answer (.ok (s.pop r list)) := congrArg answer (if_neg (stackCount_ne_zero hne))
    obtain ⟨hlen, hloads, hw, hy⟩ := State.loadLowBlock (s := s) (list := list) (n := stackCount r list)
      (Nat.le_add_right ..) sp true (rn := 13#4) (by decide) (sp + fourTimes (stackCount r list))
    rw [he, State.pop]
    refine completes_ok ⟨_, hlen, hloads, ?_⟩
    rw [hlen]
    cases r
    · obtain ⟨heff, honly, hbytes⟩ := hy.advance hw
      rw [State.following, hthumb] at heff
      exact ⟨heff, honly, hbytes⟩
    · obtain ⟨heff, honly, hbytes⟩ := hy.jump hw _ 2#32
      rw [hthumb] at heff
      exact ⟨heff, honly, hbytes⟩
  · have he : exec (.tLdmia rb list) s = answer (.ok (s.ldmia rb list)) := congrArg answer (if_neg hl)
    obtain ⟨hlen, hloads, hw, hy⟩ := State.loadLowBlock (s := s) (list := list) (Nat.le_refl _) (s.low rb)
      (!list.getLsbD rb.toNat) (up_ne_pc rb) (s.low rb + fourTimes (lowList list).length)
    rw [he, State.ldmia]
    refine completes_ok ⟨_, hlen, hloads, ?_⟩
    cases hb : list.getLsbD rb.toNat
    all_goals
      rw [hb] at hw hy
      obtain ⟨heff, honly, hbytes⟩ := hy.advance hw
      rw [State.following, hthumb] at heff
      exact ⟨heff, honly, hbytes⟩

/-! ### Branches -/

/-- A signed offset, scaled and added to an address (R730, R740). -/
theorem add_shifted_offset {n : Nat} (pc : Word) (off : BitVec n) (k : Nat) :
    pc + 4#32 + (off.signExtend 32 <<< k) = BitVec.ofInt 32 (pc.toNat + 4 + (2 ^ k : Nat) * off.toInt) := by
  have hext : off.signExtend 32 = BitVec.ofInt 32 off.toInt := rfl
  have hpow : BitVec.twoPow 32 k = BitVec.ofInt 32 (2 ^ k : Nat) := by
    rw [BitVec.ofInt_natCast]
    apply BitVec.eq_of_toNat_eq
    rw [BitVec.toNat_twoPow, BitVec.toNat_ofNat]
  have hpc : pc = BitVec.ofInt 32 pc.toNat := by simp
  rw [hext, BitVec.shiftLeft_eq_mul_twoPow, Int.mul_comm, BitVec.ofInt_add, BitVec.ofInt_add, BitVec.ofInt_mul, ← hpc,
    hpow]
  rfl

/-- The target of B and B<cond> (R730, R731): the address is even. -/
theorem alignPc_thumbTarget {n : Nat} {pc : Word} (h : pc.toNat % 2 = 0) (off : BitVec n) :
    alignPc true (thumbTarget pc (off.signExtend 32)) = BitVec.ofInt 32 (pc.toNat + 4 + 2 * off.toInt) := by
  have hmod : (thumbTarget pc (off.signExtend 32)).toNat % 2 = 0 := by
    simp only [thumbTarget, BitVec.toNat_add, BitVec.toNat_shiftLeft, BitVec.toNat_ofNat]
    omega
  rw [alignPc_of_aligned (thumb := true) (beq_iff_eq.mpr hmod)]
  exact add_shifted_offset pc off 1

/-- Bit 0 set in an even address. -/
theorem or_one_of_even {v : Word} (h : v.toNat % 2 = 0) : v ||| 1#32 = v + 1#32 := by
  refine (BitVec.add_eq_or_of_and_eq_zero v 1#32 ?_).symm
  apply BitVec.eq_of_toNat_eq
  rw [BitVec.toNat_and]
  exact (Nat.and_one_is_mod _).trans h

/-- Settles O53. -/
theorem thumbBranchesComplete : Obligations.ThumbBranchesComplete := by
  intro s c off8 off11 heven hthumb lr
  have jump : ∀ {n : Nat} (off : BitVec n), Completes (.next (s.branch (thumbTarget s.cpu.pc (off.signExtend 32))))
      fun t => Effect s t [] s.cpu.cpsr (BitVec.ofInt 32 (s.cpu.pc.toNat + 4 + 2 * off.toInt)) ∧
        t.cycles = s.cycles + s.codeCost + t.refillCost := fun off => by
    have heff := (Effect.refl s).branch (thumbTarget s.cpu.pc (off.signExtend 32))
    rw [hthumb, alignPc_thumbTarget heven] at heff
    exact completes_next ⟨heff, s.branch_cycles _⟩
  refine ⟨fun hc => ?_, fun hc => ?_, jump off11, ?_, ?_⟩
  · rw [show exec (.tBcond c off8) s = .next (s.branch _) from congrArg _ (if_pos hc)]
    exact jump off8
  · have heff := Effect.status s s.codeCost s.cpu.cpsr (s.cpu.pc + 2#32)
    have hskip : s.skip = ((s.bill s.codeCost).setCpsr s.cpu.cpsr).setPc (s.cpu.pc + 2#32) := by
      simp only [State.skip, State.advance, State.billCode_eq, State.bill_cpu, hthumb, codeStep, if_true]
      rfl
    rw [show exec (.tBcond c off8) s = .next s.skip from congrArg _ (if_neg (by rw [hc]; exact Bool.false_ne_true)), hskip]
    exact completes_next ⟨heff, rfl⟩
  · show Completes (.next (((s.billCode true).setReg 14#4 (s.cpu.pc + 4#32 + (off11.signExtend 32 <<< 12))).advance)) _
    rw [add_shifted_offset]
    exact completes_next (State.writeThumbReg_effect hthumb (by decide) _)
  · have hlink : (s.cpu.pc + 2#32) ||| 1#32 = s.cpu.pc + 2#32 + 1#32 := or_one_of_even (by
      rw [BitVec.toNat_add, BitVec.toNat_ofNat]
      omega)
    have hlr : s.reg 4#32 14#4 = lr := s.reg_of_ne 4#32 14#4 (by decide)
    have htarget : s.reg 4#32 14#4 + (off11.setWidth 32 <<< 1) = BitVec.ofNat 32 (lr.toNat + 2 * off11.toNat) := by
      apply BitVec.eq_of_toNat_eq
      rw [hlr, BitVec.toNat_add, BitVec.toNat_shiftLeft, BitVec.toNat_setWidth,
        BitVec.toNat_ofNat, Nat.shiftLeft_eq]
      omega
    have heff := (Effect.setReg s 14#4 (s.cpu.pc + 2#32 + 1#32) (by decide)).branch
      (BitVec.ofNat 32 (lr.toNat + 2 * off11.toNat))
    rw [hthumb] at heff
    rw [show exec (.tBlLow off11) s = .next ((s.setReg 14#4 ((s.cpu.pc + 2#32) ||| 1#32)).branch
      (s.reg 4#32 14#4 + (off11.setWidth 32 <<< 1))) from rfl, hlink, htarget]
    refine completes_next ⟨heff, ?_⟩
    rw [State.branch_cycles, State.codeCost_setReg, State.setReg_def, State.setRegOf_cycles]

end Sys2Proof.Machine
end

section
/-! Devices (20_memory.md section 4, 60_exceptions.md section 2, 61_dma.md section 4, 62_timers.md, 63_ppu.md section 5),
launch and reset (70_reset_and_hazards.md). -/

namespace Sys2Proof.Machine

/-! ### Stores to the register block -/

/-- A store to the register block that starts no DMA is the register's write. -/
theorem State.memWrite_io {s : State} {a v : Word} {w : Width} (ha : w.align a = a) (hr : regionOfSlot (slot a) = .io)
    (hdma : ∀ u : State, (u.writeIo (slotOffset a) v w).dma = u.dma) (hhit : s.storeWindow.hit a w.bytes = false)
    (hheld : s.dma.held = []) (seq : Bool) :
    ∃ cycles icache,
      s.memWrite a w v seq = .ok ({ s with cycles := cycles, icache := icache }.writeIo (slotOffset a) v w) := by
  refine ⟨(s.billAccess a w seq).cycles, ((s.billAccess a w seq).invalidatePages a).icache, ?_⟩
  have hregion : ((s.billAccess a w seq).invalidatePages a).region a = .io := by simp only [State.region, hr]
  rw [State.memWrite, State.busWrite, ha, hhit, if_neg Bool.false_ne_true, State.writeRaw, hregion]
  refine State.drainDma_nil _ _ _ (Eq.trans (congrArg (·.held) (hdma _)) hheld)

theorem State.writeIo_ie (s : State) (v : Word) :
    s.writeIo 0x200 v .half = { s with irq := { s.irq with ie := v.setWidth 14 } } := by
  rw [← BitVec.setWidth_setWidth_of_le v (show 14 ≤ 16 by decide)]
  rfl

theorem State.writeIo_if (s : State) (v : Word) :
    s.writeIo 0x202 v .half = { s with irq := { s.irq with ifl := s.irq.ifl &&& ~~~v.setWidth 14 } } := by
  rw [← BitVec.setWidth_setWidth_of_le v (show 14 ≤ 16 by decide)]
  rfl

theorem State.writeIo_ime (s : State) (v : Word) :
    s.writeIo 0x208 v .half = { s with irq := { s.irq with ime := v.getLsbD 0 } } := by
  have hbit : (v.setWidth 16).getLsbD 0 = v.getLsbD 0 := by simp
  rw [← hbit]
  rfl

theorem State.writeIo_ie_if (s : State) (v : Word) :
    s.writeIo 0x200 v .word = { s with irq :=
      { s.irq with ie := v.setWidth 14, ifl := s.irq.ifl &&& ~~~v.extractLsb' 16 14 } } := by
  have hlow : (v.setWidth 16).setWidth 14 = v.setWidth 14 := BitVec.setWidth_setWidth_of_le v (by decide)
  have hhigh : (v.extractLsb' 16 16).setWidth 14 = v.extractLsb' 16 14 := by
    ext i hi
    simp
    omega
  rw [← hlow, ← hhigh]
  rfl

theorem State.writeIo_waitcnt (s : State) (v : Word) :
    s.writeIo 0x204 v .half = { s with waitcnt := v.setWidth 16 &&& 0x5FFF#16 } := rfl

/-- Settles O54. -/
theorem interruptRegisterStores : Obligations.InterruptRegisterStores := by
  refine fun s v => ⟨fun hhit hheld seq => ?_, fun hhit hheld seq => ?_, fun hhit hheld seq => ?_,
    fun hhit hheld seq => ?_⟩
  · obtain ⟨cycles, icache, h⟩ := State.memWrite_io rfl rfl (fun u => congrArg (·.dma) (u.writeIo_ie v)) hhit hheld seq
    exact ⟨_, h, State.writeIo_ie _ v ▸ rfl⟩
  · obtain ⟨cycles, icache, h⟩ := State.memWrite_io rfl rfl (fun u => congrArg (·.dma) (u.writeIo_if v)) hhit hheld seq
    exact ⟨_, h, State.writeIo_if _ v ▸ rfl⟩
  · obtain ⟨cycles, icache, h⟩ := State.memWrite_io rfl rfl (fun u => congrArg (·.dma) (u.writeIo_ime v)) hhit hheld seq
    exact ⟨_, h, State.writeIo_ime _ v ▸ rfl⟩
  · obtain ⟨cycles, icache, h⟩ :=
      State.memWrite_io rfl rfl (fun u => congrArg (·.dma) (u.writeIo_ie_if v)) hhit hheld seq
    exact ⟨_, h, State.writeIo_ie_if _ v ▸ rfl⟩

/-! ### Wait states -/

theorem firstWait_eq : ∀ b : BitVec 2, firstWait b = [4, 3, 2, 8][b.toNat]! := by decide

/-- The first-access wait of a field of WAITCNT (R184). -/
theorem firstWait_field (x : Half) (shift : Nat) :
    firstWait (x.extractLsb' shift 2) = [4, 3, 2, 8][x.toNat / 2 ^ shift % 4]! := by
  rw [firstWait_eq, BitVec.extractLsb'_toNat, Nat.shiftRight_eq_div_pow]

/-- The costs of a ROM region: two kinds of 16-bit accesses, and a 32-bit one that is two of them (R180). -/
theorem State.rom_costs {s : State} {a : Word} {r : Region} (hr : s.region a = r) (hrom : r ∈ [Region.rom0, .rom1, .rom2])
    {w : Width} (hw : w ≠ .word) :
    s.cost a w false = 1 + romN s.waitcnt r ∧ s.cost a w true = 1 + romS s.waitcnt r ∧
      s.cost a .word false = s.cost a w false + s.cost a w true ∧ s.cost a .word true = 2 * s.cost a w true := by
  simp only [List.mem_cons, List.not_mem_nil, or_false] at hrom
  obtain rfl | rfl | rfl := hrom
  all_goals
    simp only [State.cost, hr, waitStates, if_neg hw, if_true, Bool.false_eq_true, if_false, true_and]
    omega

/-- Settles O55. -/
theorem waitStatesFollowWaitcnt : Obligations.WaitStatesFollowWaitcnt := by
  refine fun s => ⟨fun v hhit hheld seq => ?_, fun a => ?_⟩
  · obtain ⟨cycles, icache, h⟩ := State.memWrite_io rfl rfl (fun _ => rfl) hhit hheld seq
    exact ⟨_, h, rfl⟩
  intro first second costs
  refine ⟨fun h w hw => ?_, fun h w hw => ?_, fun h w hw => ?_, fun h w seq => ?_⟩
  · simp only [first, second, ← firstWait_field]
    exact State.rom_costs h (by simp) hw
  · simp only [first, second, ← firstWait_field]
    exact State.rom_costs h (by simp) hw
  · simp only [first, second, ← firstWait_field]
    exact State.rom_costs h (by simp) hw
  · simp only [first, ← firstWait_field, State.cost, h, waitStates]

/-! ### Interrupt requests -/

theorem State.raiseIrqIf_eq (s : State) (b : Bool) (k : Nat) :
    s.raiseIrqIf b k = { s with irq :=
      { s.irq with ifl := if b then s.irq.ifl ||| BitVec.twoPow 14 k else s.irq.ifl } } := by
  cases b <;> rfl

/-! ### Timers -/

/-- The prescaler of R923 as a power of two. -/
theorem Timer.scale_eq (t : Timer) : [1, 64, 256, 1024][(t.ctl.extractLsb' 0 2).toNat]! = 2 ^ t.shift := by
  have h : ∀ b : BitVec 2, [1, 64, 256, 1024][b.toNat]! =
      2 ^ (if b = 0#2 then 0 else if b = 1#2 then 6 else if b = 2#2 then 8 else 10) := by decide
  exact h _

/-- The counter of a running timer (R926). -/
theorem Timer.countAt_running {t : Timer} {n : Fin 4} (hrun : t.running = true) (hcas : t.cascading n = false) (now : Nat) :
    t.countAt n now =
      let k := t.start + (now - t.t0) / 2 ^ t.shift
      if k < 0x10000 then k else t.reload.toNat + (k - 0x10000) % (0x10000 - t.reload.toNat) := by
  rw [Timer.countAt, hrun, hcas, if_neg (by decide), Nat.shiftRight_eq_div_pow]
  exact ite_congr (propext Nat.lt_succ_iff.symm) (fun _ => rfl) fun _ => rfl

theorem Timer.countAt_running_lt {t : Timer} {n : Fin 4} (hrun : t.running = true) (hcas : t.cascading n = false)
    (now : Nat) : t.countAt n now < 2 ^ 16 := by
  rw [Timer.countAt_running hrun hcas]
  dsimp only
  have hr := t.reload.isLt
  split
  · assumption
  · have := Nat.mod_lt (t.start + (now - t.t0) / 2 ^ t.shift - 0x10000) (show 0 < 0x10000 - t.reload.toNat by omega)
    omega

/-- Where the counters of the timers are (R920). -/
theorem timerCount_address : ∀ n : Fin 4,
    let a := 0x04000100#32 + BitVec.ofNat 32 (4 * n.val)
    a.toNat % 2 = 0 ∧ regionOfSlot (slot a) = .io ∧ ioReg (slotOffset a) = some (.timerCount n) := by decide

/-- A read of TMnCNT_L, one cycle after its start (R922). -/
theorem State.memRead_timerCount (s : State) (n : Fin 4) (seq : Bool) :
    (s.memRead (0x04000100#32 + BitVec.ofNat 32 (4 * n.val)) .half seq).1 =
      (BitVec.ofNat 16 ((s.timer n).countAt n (s.cycles + 1))).setWidth 32 := by
  obtain ⟨halign, hslot, hreg⟩ := timerCount_address n
  generalize 0x04000100#32 + BitVec.ofNat 32 (4 * n.val) = a at *
  have hregion : s.region a = .io := by simp only [State.region, hslot]
  have hcost : s.cost a .half seq = 1 := by simp only [State.cost, hregion, waitStates]
  rw [State.memRead_aligned halign, State.readRaw, show (s.billAccess a .half seq).region a = _ from hregion]
  simp only [State.readIo, State.readIoHalf, hreg, State.readReg, State.readTimerCount, State.billAccess, hcost]
  rfl

theorem State.timer_setTimer (s : State) (n m : Fin 4) (t : Timer) :
    (s.setTimer n t).timer m = if m = n then t else s.timer m := by
  show (s.timers.set n.val t n.isLt)[m.val] = if m = n then t else s.timers[m.val]
  simp only [Vector.getElem_set, Fin.ext_iff, eq_comm]

/-- Settles O56. -/
theorem timersCount : Obligations.TimersCount := by
  constructor
  · intro s n seq t scale k hrun hcas _
    have hlt := Timer.countAt_running_lt hrun hcas (s.cycles + 1)
    have hcount := Timer.countAt_running hrun hcas (s.cycles + 1)
    rw [State.memRead_timerCount, BitVec.toNat_setWidth, BitVec.toNat_ofNat, Nat.mod_eq_of_lt hlt,
      Nat.mod_eq_of_lt (Nat.lt_trans hlt (by decide)), hcount, ← Timer.scale_eq]
  · intro s win time t scale hcas
    have he : s.event win .timer3 time = .ok ((s.setTimer 3 (t.reloadAt 3 time)).raiseIrqIf t.irq 6) := rfl
    have htimer := s.timer_setTimer 3
    rw [he, State.raiseIrqIf_eq]
    refine ⟨_, rfl, rfl, fun n hn => (htimer n _).trans (if_neg hn), (htimer 3 _).trans ?_, rfl⟩
    rw [if_pos rfl, Timer.reloadAt, hcas, if_neg Bool.false_ne_true, Nat.shiftLeft_eq, ← Timer.scale_eq]

/-! ### The line machine -/

/-- No channel that a timing could start is armed. -/
theorem State.triggerTimed_idle {s : State} {timing : BitVec 2}
    (h : ∀ n, (s.dmaChan n).enabled = false ∨ (s.dmaChan n).timing ≠ timing) (win : Window) (ns : List (Fin 4)) :
    s.triggerTimed win timing ns = .ok s := by
  induction ns with
  | nil => rfl
  | cons n ns ih =>
    have harmed : ((s.dmaChan n).enabled && (s.dmaChan n).timing == timing) = false := by
      obtain h | h := h n <;> simp [h]
    rw [State.triggerTimed, State.triggerArmed, harmed, if_neg Bool.false_ne_true]
    exact ih

theorem Ppu.enterHblank_line (p : Ppu) (m : Memory) (time : Nat) :
    (p.enterHblank m time).phase = .hblank ∧ (p.enterHblank m time).nextPpu = time + 226 := by
  unfold Ppu.enterHblank
  dsimp only
  split
  · unfold Ppu.drawLine
    dsimp only
    split <;> exact ⟨rfl, rfl⟩
  · exact ⟨rfl, rfl⟩

theorem Ppu.enterLine_line (p : Ppu) (time : Nat) :
    (p.enterLine time).phase = .hdraw ∧ (p.enterLine time).nextPpu = time + 1006 ∧
      (p.enterLine time).dispstat = p.dispstat ∧ (p.enterLine time).frame = p.frame := by
  unfold Ppu.enterLine
  dsimp only
  split <;> exact ⟨rfl, rfl, rfl, rfl⟩

/-- H-blank starts, with no DMA armed for it (R1001). -/
theorem State.hblankStart_idle {s : State} (h : ∀ n, (s.dmaChan n).enabled = false ∨ (s.dmaChan n).timing ≠ 2#2)
    (win : Window) (time : Nat) :
    s.hblankStart win time =
      .ok ((s.mapPpu (·.enterHblank s.mem time)).raiseIrqIf (s.ppu.dispstat.getLsbD 4) 1) := by
  have hidle := State.triggerTimed_idle (s := (s.mapPpu (·.enterHblank s.mem time)).raiseIrqIf
    (s.ppu.dispstat.getLsbD 4) 1) (timing := 2#2) (by rw [State.raiseIrqIf_eq]; exact h) win allChannels
  rw [State.hblankStart, hidle]
  exact ite_self _

theorem State.raiseIrqIf_or (s : State) (b : Bool) (k : Nat) :
    s.raiseIrqIf b k = { s with irq := { s.irq with ifl := s.irq.ifl ||| if b then BitVec.twoPow 14 k else 0#14 } } := by
  cases b
  · simp [State.raiseIrqIf]
  · rfl

/-- V-blank starts on line 160, with no DMA armed for it (R996, R1000). -/
theorem State.vblankStart_idle {s : State} (h : ∀ n, (s.dmaChan n).enabled = false ∨ (s.dmaChan n).timing ≠ 1#2)
    (win : Window) :
    s.vblankStart win = .ok { s with
      output := { s.output with frames := (if s.ppu.vcount = 160 then [s.ppu.frame] else []) ++ s.output.frames }
      irq := { s.irq with ifl :=
        s.irq.ifl ||| if s.ppu.vcount = 160 ∧ s.ppu.dispstat.getLsbD 3 = true then 1#14 else 0#14 } } := by
  have hidle := State.triggerTimed_idle (s := s.handFrame.raiseIrqIf (s.ppu.dispstat.getLsbD 3) 0) (timing := 1#2)
    (by rw [State.raiseIrqIf_eq]; exact h) win allChannels
  rw [State.vblankStart, hidle, State.raiseIrqIf_or]
  by_cases hline : s.ppu.vcount = 160
  · simp only [hline, if_true, true_and]
    rfl
  · simp only [hline, if_false, false_and, BitVec.or_zero]
    rfl

/-- Settles O58. -/
theorem linesAdvance : Obligations.LinesAdvance := by
  intro s win time hidle
  have hvideo : ∀ timing ∈ [1#2, 2#2], ∀ n, (s.dmaChan n).enabled = false ∨ (s.dmaChan n).timing ≠ timing :=
    fun timing ht n => (hidle n).imp_right fun h e => h (e ▸ ht)
  cases hphase : s.ppu.phase
  · obtain ⟨hblank, hnext⟩ := s.ppu.enterHblank_line s.mem time
    have he : s.event win .ppu time = _ :=
      (show s.event win .ppu time = s.hblankStart win time by simp only [State.event, State.ppuEvent, hphase]).trans
        (State.hblankStart_idle (hvideo 2#2 (by simp)) win time)
    rw [he, State.raiseIrqIf_eq]
    exact ⟨_, rfl, rfl, rfl, rfl, fun _ => ⟨hblank, hnext, (enterHblank_keeps ..).1, rfl, rfl⟩, nofun⟩
  · obtain ⟨hdraw, hnext, hstat, hframe⟩ := s.ppu.enterLine_line time
    have hline := (enterLine_keeps s.ppu time).1
    have he : s.event win .ppu time = s.lineStart win time := by simp only [State.event, State.ppuEvent, hphase]
    have hvblank := State.vblankStart_idle (s := s.mapPpu (·.enterLine time)) (hvideo 1#2 (by simp)) win
    rw [he, State.lineStart, hvblank]
    refine ⟨_, rfl, ?_⟩
    rw [State.vcounterCheck, State.raiseIrqIf_or]
    refine ⟨rfl, rfl, rfl, nofun, fun _ => ⟨hdraw, hnext, hline, rfl, ?_, ?_⟩⟩
    · show (if (s.ppu.enterLine time).vcount = 160 then [(s.ppu.enterLine time).frame] else []) ++ _ = _
      rw [hline, hframe]
      rfl
    · show _ ||| (if (s.ppu.enterLine time).vcount = 160 ∧ (s.ppu.enterLine time).dispstat.getLsbD 3 = true then _ else _)
        ||| (if ((s.ppu.enterLine time).dispstat.getLsbD 5 && (s.ppu.enterLine time).vcount ==
          ((s.ppu.enterLine time).dispstat.extractLsb' 8 8).toNat) = true then _ else _) = _
      simp only [hline, hstat, Bool.and_eq_true, beq_iff_eq]
      rfl

end Sys2Proof.Machine
end

section
/-! A one-word DMA transfer (61_dma.md section 4), launch and reset (70_reset_and_hazards.md). -/

namespace Sys2Proof.Machine

/-! ### DMA between RAM addresses -/

theorem State.region_of_romSlot (s : State) {a : Word} (h : inRomSlots a = true) :
    s.region a ∈ [Region.rom0, .rom1, .rom2] := by
  simp only [inRomSlots, Bool.and_eq_true, decide_eq_true_eq] at h
  unfold State.region
  generalize slot a = k at h
  obtain ⟨hlo, hhi⟩ := h
  obtain rfl | rfl | rfl | rfl | rfl | rfl : k = 8 ∨ k = 9 ∨ k = 10 ∨ k = 11 ∨ k = 12 ∨ k = 13 := by omega
  all_goals simp [regionOfSlot]

/-- A RAM address is in no ROM slot (R889). -/
theorem inRomSlots_of_ramAddress {s : State} {a : Word} (h : s.ramAddress a = true) : inRomSlots a = false := by
  refine Bool.eq_false_iff.mpr fun hrom => ?_
  have hregion := s.region_of_romSlot hrom
  simp only [List.mem_cons, List.not_mem_nil, or_false] at hregion
  unfold State.ramAddress at h
  obtain hr | hr | hr := hregion <;> rw [hr] at h <;> cases h

/-- A RAM address is not the EEPROM port (R1162). -/
theorem isEepromPort_of_ramAddress {s : State} {a : Word} (h : s.ramAddress a = true) (u : State) :
    u.isEepromPort a = false := by
  have hslot : a.extractLsb' 24 8 ≠ 0x0D#8 := fun e => by
    have := inRomSlots_of_ramAddress h
    rw [inRomSlots, slot, e] at this
    cases this
  simp [State.isEepromPort, hslot]

/-- A word stored to RAM changes exactly its cells. -/
theorem State.writeRaw_ram {s : State} {a : Word} (h : s.ramAddress a = true) (v : Word) :
    ∃ m, s.writeRaw (Width.word.align a) .word v = .ok { s with mem := m } ∧
      ∀ k, m.byte k = ((s.storedCells a .word v).lookup k).getD (s.mem.byte k) := by
  unfold State.ramAddress at h
  unfold State.writeRaw State.storedCells
  rw [region_align]
  cases hr : s.region a <;> rw [hr] at h
  case ewram | iwram | palette | vram | oam => exact ⟨_, rfl, fun k => byte_write_cells s.mem _ v .word k⟩
  all_goals cases h

theorem State.dmaChan_setDmaChan (s : State) (n m : Fin 4) (d : DmaChannel) :
    (s.setDmaChan n d).dmaChan m = if m = n then d else s.dmaChan m := by
  show (s.dma.chan.set n.val d n.isLt)[m.val] = if m = n then d else s.dma.chan[m.val]
  simp only [Vector.getElem_set, Fin.ext_iff, eq_comm]

/-- A DMA read of a RAM address gives the word of memory. -/
theorem State.readRaw_dma_ram {s : State} {a : Word} (h : s.ramAddress a = true) :
    s.readRaw .dma (Width.word.align a) .word = (s.wordAt a, s) := by
  rw [State.ramAddress_eq] at h
  rw [State.readRaw_ram _ _ _ _ (by rw [region_align]; exact h), State.wordAt, region_align]
  rfl

/-- One 32-bit element between RAM addresses (R886). -/
theorem State.dmaElement_ram {s : State} {win : Window} {n : Fin 4} {d : DmaChannel} (hd : s.dmaChan n = d)
    (hsrc : s.ramAddress d.isrc = true) (hdst : s.ramAddress d.idst = true)
    (hwin : win.hit (Width.word.align d.idst) 4 = false) (seq : Bool) :
    ∃ m icache, s.dmaElement win n false .word seq =
        .ok ({ s with
          cycles := s.cycles + s.cost d.isrc .word seq + s.cost d.idst .word seq, mem := m, icache := icache }.setDmaChan n
          (d.advance (srcStep d.srcCtl .word d.isrc) (dstStep d.dstCtl .word false) false)) ∧
      ∀ k, m.byte k = ((s.storedCells d.idst .word (s.wordAt d.isrc)).lookup k).getD (s.mem.byte k) := by
  obtain ⟨m, hwrite, hbytes⟩ := State.writeRaw_ram (s := (((s.billAccess d.isrc .word seq).billAccess d.idst .word
    seq).invalidatePages (Width.word.align d.idst))) hdst (s.wordAt d.isrc)
  refine ⟨m, (((s.billAccess d.isrc .word seq).billAccess d.idst .word seq).invalidatePages
    (Width.word.align d.idst)).icache, ?_, hbytes⟩
  have hbus : (s.billAccess d.isrc .word seq).busWrite win d.idst .word (s.wordAt d.isrc) seq = _ :=
    (if_neg (by rw [show win.hit _ Width.word.bytes = false from hwin]; exact Bool.false_ne_true)).trans hwrite
  rw [State.dmaElement, hd, State.readRaw_dma_ram (s := s.billAccess d.isrc .word seq) hsrc,
    show (s.billAccess d.isrc .word seq).wordAt d.isrc = s.wordAt d.isrc from rfl, hbus]
  rw [← hd]
  rfl

/-- The steps of R889 for a channel whose source is not in a ROM slot. -/
theorem srcStep_word {ctl : BitVec 2} {a : Word} (h : inRomSlots a = false) (h3 : ctl ≠ 3#2) :
    srcStep ctl .word a = if ctl = 1#2 then -4#32 else if ctl = 2#2 then 0#32 else 4#32 := by
  rw [srcStep, h]
  revert ctl
  decide

theorem dstStep_word : ∀ ctl : BitVec 2,
    dstStep ctl .word false = if ctl = 1#2 then -4#32 else if ctl = 2#2 then 0#32 else 4#32 := by decide

/-- A transfer of one word between RAM addresses is one element after two internal cycles (R885). -/
theorem State.transfer_one {s : State} {win : Window} {n : Fin 4} {d : DmaChannel} (hd : s.dmaChan n = d)
    (hen : d.enabled = true) (hctl : d.srcCtl ≠ 3#2) (hwide : d.wide = true) (hfifo : d.feedsFifo n = false)
    (hcount : d.icount = 1) (hsrc : s.ramAddress d.isrc = true) (hdst : s.ramAddress d.idst = true) :
    s.transfer win n = (do
      let t ← (s.bill 2).dmaElement win n false .word false
      return t.endTransfer n false) := by
  have hhint : (s.bill 2).eepromSizeHint n 1 d.idst = s.bill 2 := by
    simp [State.eepromSizeHint, isEepromPort_of_ramAddress hdst]
  have hguard : (!d.enabled || d.srcCtl == 3#2) = false := by simp [hen, hctl]
  simp only [State.transfer, hd, hguard, hfifo, hwide, hcount, inRomSlots_of_ramAddress hsrc, Bool.false_eq_true,
    if_false, Bool.or_true, if_true, Bool.false_and, Nat.one_ne_zero, hhint, State.dmaElements, bind_assoc]
  rfl

/-- Settles O57. -/
theorem dmaMovesOneWord : Obligations.DmaMovesOneWord := by
  intro s win n d hen hctl hwide hfifo hcount hrepeat hsrc hdst hwin move
  have hd : s.dmaChan n = d := rfl
  clear_value d
  obtain ⟨m, icache, helem, hbytes⟩ := State.dmaElement_ram (s := s.bill 2) hd hsrc hdst hwin false
  rw [srcStep_word (inRomSlots_of_ramAddress hsrc) hctl, dstStep_word] at helem
  rw [State.transfer_one hd hen hctl hwide hfifo hcount hsrc hdst, helem]
  refine ⟨_, rfl, ?_⟩
  rw [State.endTransfer, State.dmaChan_setDmaChan, if_pos rfl, State.raiseIrqIf_eq]
  have hfinish : ∀ src dst z, ((d.advance src dst false).finish n z false) =
      { d with isrc := d.isrc + src, idst := d.idst + dst, icount := 0, cntH := d.cntH &&& 0x7FFF#16 } := fun src dst z => by
    have hr : (d.advance src dst false).repeats = false := hrepeat
    rw [DmaChannel.finish, hr]
    simp [DmaChannel.advance, DmaChannel.disable, hcount]
  rw [hfinish]
  refine ⟨rfl, rfl, hbytes, fun k hk => ?_, ?_, rfl⟩
  · exact (State.dmaChan_setDmaChan ..).trans ((if_neg hk).trans ((State.dmaChan_setDmaChan ..).trans (if_neg hk)))
  · exact (State.dmaChan_setDmaChan ..).trans (if_pos rfl)

/-! ### Launch -/

theorem headerValid_eq_false {rom : List Byte} :
    headerValid rom = false ↔ rom.length < 0xC0 ∨ rom[0xB2]? ≠ some 0x96#8 := by
  rw [headerValid, Bool.and_eq_false_iff, decide_eq_false_iff_not, Nat.not_le, beq_eq_false_iff_ne]

theorem find_cellsFrom {bs : List Byte} {j : Nat} {b : Byte} (h : bs[j]? = some b) (k : Nat) (m : Memory) :
    (cellsFrom k bs ++ m).find (k + j) = some b := by
  induction bs generalizing j k with
  | nil => cases h
  | cons c bs ih =>
    cases j with
    | zero => simpa [cellsFrom, Memory.find] using h
    | succ j =>
      have hne : ¬k = k + (j + 1) := by omega
      rw [cellsFrom, List.cons_append, Memory.find, if_neg hne, ← Nat.add_assoc, Nat.add_right_comm]
      exact ih h (k + 1)

/-- The BIOS image at launch (R1181). -/
theorem LaunchInput.byte_bios {x : LaunchInput} {k : Nat} {b : Byte} (h : x.bios[k]? = some b) :
    x.memory.byte k = b := by
  have hfind := find_cellsFrom h 0 (cellsFrom 0x08000000 x.rom ++
    cellsFrom saveBase (blobBytes x.backend.1 (x.saveBlob.getD [])))
  rw [Nat.zero_add, ← List.append_assoc] at hfind
  rw [Memory.byte, LaunchInput.memory, hfind]
  rfl

theorem coldReset_isWritten (x : LaunchInput) (r : StoredReg) : x.coldReset.isWritten r = false := by
  cases r with
  | general k => exact Vector.getElem_replicate k.isLt
  | saved k => exact Vector.getElem_replicate k.isLt

theorem directBoot_isWritten (s : State) (r : StoredReg) : s.directBoot.isWritten r = true := by
  cases r with
  | general k => exact Vector.getElem_replicate k.isLt
  | saved k => exact Vector.getElem_replicate k.isLt

/-- The stack pointers of DirectBoot (R1186). -/
theorem directBoot_gpr : ∀ (m : BitVec 5) (i : RegNo), legalMode m = true → i ≠ 15#4 →
    directBootCpu.gpr.get (phys m i) =
      if i ≠ 13#4 then 0#32
      else if m = modeUsr ∨ m = modeSys then 0x03007F00#32
      else if m = modeIrq then 0x03007FA0#32
      else if m = modeSvc then 0x03007FE0#32 else 0#32 := by
  decide +kernel

theorem directBoot_cpsr : directBootCpu.cpsr.toWord = 0x1F#32 := by decide

/-- Settles O59. -/
theorem launchStates : Obligations.LaunchStates := by
  intro x
  constructor
  · rw [← headerValid_eq_false, launch]
    cases headerValid x.rom <;> simp
  · intro s hs
    have hs' : s = if x.directBoot then x.coldReset.directBoot else x.coldReset := by
      unfold launch at hs
      split at hs <;> cases hs
      rfl
    cases hboot : x.directBoot <;> rw [hboot] at hs' <;> subst hs'
    · exact ⟨rfl, rfl, rfl, rfl, rfl, rfl, rfl, fun k b h _ => LaunchInput.byte_bios h,
        fun _ => ⟨rfl, rfl, rfl, rfl, rfl, rfl, coldReset_isWritten x⟩, nofun⟩
    · refine ⟨rfl, rfl, rfl, rfl, rfl, rfl, rfl, fun k b h _ => LaunchInput.byte_bios h, nofun,
        fun _ => ⟨rfl, directBoot_cpsr, directBoot_isWritten _, ?_, fun m i hm hi => directBoot_gpr m i hm hi, ?_, rfl, rfl⟩⟩
      · exact fun k => congrArg Psr.toWord (Vector.getElem_replicate k.isLt)
      · have haffine : ∀ k : Fin 2, (Vector.replicate 2 directBootAffine).get k = directBootAffine := fun k =>
          Vector.getElem_replicate k.isLt
        exact fun k => ⟨congrArg Affine.pa (haffine k), congrArg Affine.pd (haffine k)⟩

/-! ### Reset -/

/-- Settles O60: every part of the reset state by evaluation. -/
theorem resetValues : Obligations.ResetValues := by
  refine ⟨?_, ?_, ?_, ?_, ?_, ?_, ?_, ?_, ?_, ?_, ?_, ?_, ?_, ?_, ?_, ?_, ?_⟩
  all_goals decide

end Sys2Proof.Machine
end
